-- ==== Sys2Proof/Word.lean ====
section
/-!
DEFINITION. The words of the GCM core: the 32-bit bus word, the byte, the 128-bit Block and the offset of the
register window (spec/00_scope.md R8, R10, R11; spec/20_memory.md R81).
-/

namespace Sys2Proof

/-- A byte of a block, a key or a message. -/
abbrev Byte := BitVec 8

/-- The bus data width and the width of a command word (R8). -/
abbrev Word := BitVec 32

/-- A Block is a 128-bit value; byte 0 is its most significant byte (R11). -/
abbrev Block := BitVec 128

/-- A byte offset in the 4 KiB register window (R81). -/
abbrev Offset := BitVec 12

end Sys2Proof
end

