-- ==== Sys2Proof/Syntax.lean ====
section
/-!
DEFINITION. The commands of the GCM core, one constructor for each row of spec/opcode_table.json
(spec/30_encoding.md R124).
-/

namespace Sys2Proof

/-- The sixteen commands of R124 in the table's order. A length command carries the field N of its word, the block
length in bytes (R120, R121); every other operand is an implicit register (R129). -/
inductive Instr where
  /-- NOP (R170). -/
  | nop
  /-- GF_ADD (R185). -/
  | gfAdd
  /-- GF_MUL (R186). -/
  | gfMul
  /-- CTR_INIT (R205). -/
  | ctrInit
  /-- CTR_INC (R206). -/
  | ctrInc
  /-- KS_XOR n (R207). -/
  | ksXor (n : BitVec 5)
  /-- H_DERIVE (R230). -/
  | hDerive
  /-- GHASH_INIT (R231). -/
  | ghashInit
  /-- GHASH_AAD n (R232). -/
  | ghashAad (n : BitVec 5)
  /-- GHASH_TEXT n (R233). -/
  | ghashText (n : BitVec 5)
  /-- GHASH_FINAL (R234). -/
  | ghashFinal
  /-- SEAL_INIT (R255). -/
  | sealInit
  /-- SEAL_AAD n (R256). -/
  | sealAad (n : BitVec 5)
  /-- SEAL_PT n (R257). -/
  | sealPt (n : BitVec 5)
  /-- SEAL_FINAL (R258). -/
  | sealFinal
  /-- CLEAR (R171). -/
  | clear
  deriving DecidableEq, Repr

/-- The mnemonic of a command as R124 and the assembler (R130) write it. -/
def Instr.mnemonic : Instr → String
  | .nop => "NOP"
  | .gfAdd => "GF_ADD"
  | .gfMul => "GF_MUL"
  | .ctrInit => "CTR_INIT"
  | .ctrInc => "CTR_INC"
  | .ksXor _ => "KS_XOR"
  | .hDerive => "H_DERIVE"
  | .ghashInit => "GHASH_INIT"
  | .ghashAad _ => "GHASH_AAD"
  | .ghashText _ => "GHASH_TEXT"
  | .ghashFinal => "GHASH_FINAL"
  | .sealInit => "SEAL_INIT"
  | .sealAad _ => "SEAL_AAD"
  | .sealPt _ => "SEAL_PT"
  | .sealFinal => "SEAL_FINAL"
  | .clear => "CLEAR"

end Sys2Proof
end

