-- ==== Sys2Proof/WellFormed.lean ====
section
/-!
DEFINITION. Well-formed commands: the one operand a command carries, its block length, is legal
(spec/30_encoding.md R121). The assembler emits exactly the words of these (R130).
-/

namespace Sys2Proof

/-- Legal block lengths are 1 to 16 (R121). -/
def lenLegal (n : BitVec 5) : Bool :=
  decide (1 ≤ n.toNat) && decide (n.toNat ≤ 16)

/-- The block length a command carries, for the commands that take one (the "len" column of R124). -/
def Instr.length? : Instr → Option (BitVec 5)
  | .nop => none
  | .gfAdd => none
  | .gfMul => none
  | .ctrInit => none
  | .ctrInc => none
  | .ksXor n => some n
  | .hDerive => none
  | .ghashInit => none
  | .ghashAad n => some n
  | .ghashText n => some n
  | .ghashFinal => none
  | .sealInit => none
  | .sealAad n => some n
  | .sealPt n => some n
  | .sealFinal => none
  | .clear => none

/-- A command is well formed when its block length, if it takes one, is legal (R121, R130). -/
def Instr.wellFormed (i : Instr) : Bool :=
  match i.length? with
  | none => true
  | some n => lenLegal n

end Sys2Proof
end

