-- ==== Sys2Proof/Decode.lean ====
section
/-!
DEFINITION. The decoder of command words, total on all 2^32 words (spec/30_encoding.md R127), and after it the
encoder, written from the same table (R120, R124, R130).
-/

namespace Sys2Proof

/-- Why a word is no command (R301). -/
inductive IllegalReason where
  /-- RSV = word[31:13] is not 0 (R123). -/
  | reservedBits
  /-- OPC is not in the table of R124 (R126). -/
  | unknownOpcode
  /-- N is not 0 on a command that takes no block length (R122). -/
  | lengthNotTaken
  deriving DecidableEq, Repr

/-- The three results of decoding (R127). -/
inductive Decoded where
  /-- A command with a legal operand. -/
  | command (i : Instr)
  /-- A length command whose N is 0 or above 16; it completes with BAD_BLOCK_LENGTH (R121, R302). -/
  | badLen (i : Instr)
  /-- No command; it completes with ILLEGAL_COMMAND (R301). -/
  | illegal (why : IllegalReason)
  deriving DecidableEq, Repr

/-- The command a word stands for, legal length or not; none for a word that is no command (log entry 12). -/
def Decoded.instr? : Decoded → Option Instr
  | .command i => some i
  | .badLen i => some i
  | .illegal _ => none

/-- Field OPC of a command word, bits [7:0] (R120). -/
def opcField (w : Word) : BitVec 8 := w.extractLsb' 0 8

/-- Field N of a command word, bits [12:8] (R120). -/
def lenField (w : Word) : BitVec 5 := w.extractLsb' 8 5

/-- Field RSV of a command word, bits [31:13] (R120). -/
def rsvField (w : Word) : BitVec 19 := w.extractLsb' 13 19

/-- The opcode table of R124: the command an OPC names, with `n` as its block length if it takes one. -/
def lookup (opc : BitVec 8) (n : BitVec 5) : Option Instr :=
  if opc = 0x00#8 then some .nop
  else if opc = 0x01#8 then some .gfAdd
  else if opc = 0x02#8 then some .gfMul
  else if opc = 0x10#8 then some .ctrInit
  else if opc = 0x11#8 then some .ctrInc
  else if opc = 0x12#8 then some (.ksXor n)
  else if opc = 0x20#8 then some .hDerive
  else if opc = 0x21#8 then some .ghashInit
  else if opc = 0x22#8 then some (.ghashAad n)
  else if opc = 0x23#8 then some (.ghashText n)
  else if opc = 0x24#8 then some .ghashFinal
  else if opc = 0x30#8 then some .sealInit
  else if opc = 0x31#8 then some (.sealAad n)
  else if opc = 0x32#8 then some (.sealPt n)
  else if opc = 0x33#8 then some .sealFinal
  else if opc = 0x3F#8 then some .clear
  else none

/-- Decoding a command word, the checks in the order of R127. -/
def decode (w : Word) : Decoded :=
  if rsvField w ≠ 0#19 then .illegal .reservedBits
  else
    match lookup (opcField w) (lenField w) with
    | none => .illegal .unknownOpcode
    | some i =>
      match i.length? with
      | none => if lenField w ≠ 0#5 then .illegal .lengthNotTaken else .command i
      | some n => if lenLegal n then .command i else .badLen i

/-- The opcode of a command (R124). -/
def Instr.opcode : Instr → BitVec 8
  | .nop => 0x00#8
  | .gfAdd => 0x01#8
  | .gfMul => 0x02#8
  | .ctrInit => 0x10#8
  | .ctrInc => 0x11#8
  | .ksXor _ => 0x12#8
  | .hDerive => 0x20#8
  | .ghashInit => 0x21#8
  | .ghashAad _ => 0x22#8
  | .ghashText _ => 0x23#8
  | .ghashFinal => 0x24#8
  | .sealInit => 0x30#8
  | .sealAad _ => 0x31#8
  | .sealPt _ => 0x32#8
  | .sealFinal => 0x33#8
  | .clear => 0x3F#8

/-- Field N of a command's word: its block length, or 0 for a command that takes none (R120). -/
def Instr.lenBits (i : Instr) : BitVec 5 :=
  match i.length? with
  | none => 0#5
  | some n => n

/-- The command word `OPC | (n << 8)` (R130). -/
def encode (i : Instr) : Word :=
  i.opcode.setWidth 32 ||| (i.lenBits.setWidth 32 <<< 8)

/-- The assembler: it refuses a block length outside 1 to 16 (R130). -/
def assemble (i : Instr) : Option Word :=
  if i.wellFormed then some (encode i) else none

/-- The instruction the decoder reads from an opcode-table row's word (bit 0 the least significant bit of the one
32-bit command word). Every command word is 32 bits (R128), so a wider row would be no command. -/
def decodeTableWord (nbits w : Nat) : Option Instr :=
  if nbits ≤ 32 then (decode (BitVec.ofNat 32 (w % 2 ^ nbits))).instr? else none

end Sys2Proof
end

