-- ==== Sys2Proof/Config.lean ====
section
/-!
DEFINITION. What the platform fixes and the spec leaves open as a named parameter: the block cipher
(spec/00_scope.md R9, R12; spec/60_exceptions.md R320). The other two named parameters need no constant:
`cmdLatency` is where a completion stands among the host's accesses (log entry 4) and `BASE` is below the offsets
the model speaks of (log entry 5).
-/

namespace Sys2Proof.Config

/-- The external block cipher: a key of 16, 24 or 32 bytes and a Block give a Block. Deterministic, total, and
nothing else is assumed of it (R9, R320; 93_implementation_defined.md I1). DESIGN CHOICE (log entry 3): the function is
total on every list of bytes; the core asks it only for keys it has checked. -/
opaque blockCipher : List Byte → Block → Block

end Sys2Proof.Config
end

