-- ==== Sys2Proof/Machine/State.lean ====
section
/-!
DEFINITION. The state of the GCM core as plain data: every register of spec/10_state.md R33, the in-flight command
(R59), and the model's own record of what the host does and observes. Its reset value (spec/70_reset_and_hazards.md
R351), and the reasons a step could stop.
-/

namespace Sys2Proof.Machine

/-- The control register CTRL by its fields; its reserved bits have no storage, since they read 0 and ignore writes
(R34). -/
structure Ctrl where
  /-- CTRL.KEY_LEN, bits [5:0]: the key length in bytes, any value storable (R34, R35). -/
  keyLen : BitVec 6
  /-- CTRL.NONCE_LEN, bits [12:8]: the nonce length in bytes, any value storable (R34, R36). -/
  nonceLen : BitVec 5
  /-- CTRL.KEEP_H, bit [16]: the hash subkey outlives a seal (R37). -/
  keepH : Bool
  /-- CTRL.IRQ_EN, bit [17]: the interrupt output is enabled (R37, R315). -/
  irqEn : Bool
  deriving DecidableEq, Repr

/-- STATUS.SEQ, the flow state (R44). DEDUCED (log entry 11): the values 5, 6 and 7, never held, have no
representation. -/
inductive FlowState where
  /-- 0: no flow. -/
  | idle
  /-- 1: GHASH-only flow, associated-data phase. -/
  | ghAad
  /-- 2: GHASH-only flow, text phase. -/
  | ghText
  /-- 3: seal flow, associated-data phase. -/
  | slAad
  /-- 4: seal flow, plaintext phase. -/
  | slText
  deriving DecidableEq, Repr

/-- STATUS.ERR_CODE, the named codes of R300. DEDUCED (log entry 11): the reserved codes 9 to 15 have no
representation. -/
inductive ErrCode where
  /-- 0: success. -/
  | none
  /-- 1 (R301). -/
  | illegalCommand
  /-- 2 (R302). -/
  | badBlockLength
  /-- 3 (R303). -/
  | sequence
  /-- 4 (R304). -/
  | invalidKeyLength
  /-- 5 (R305). -/
  | unsupportedNonceLength
  /-- 6 (R306). -/
  | messageTooLong
  /-- 7 (R307). -/
  | lengthOverflow
  /-- 8: reserved for `open`, never raised (R309). -/
  | authenticationFailure
  deriving DecidableEq, Repr

/-- One bus access as the host makes it: offset, width in bits and byte-lane strobe (R88). -/
structure Access where
  offset : Offset
  width : Nat
  lanes : BitVec 4
  deriving DecidableEq, Repr

/-- One step of the total order of R97: a host access, a completion step, or a reset. -/
inductive Event where
  /-- BusRead (R86). -/
  | read (acc : Access)
  /-- BusWrite (R87). -/
  | write (acc : Access) (data : Word)
  /-- The core's completion step; without a command in flight it is not enabled and nothing happens (R155). -/
  | complete
  /-- The reset step (R350). -/
  | reset
  deriving DecidableEq, Repr

/-- A bus response (R86). -/
inductive Resp where
  | okay
  | slverr
  deriving DecidableEq, Repr

/-- What an access returns to the host; a write returns data 0 (log entry 19). -/
structure BusReply where
  data : Word
  resp : Resp
  deriving DecidableEq, Repr

/-- A request at the cipher port: keyBytes() and a Block (R320). -/
structure CipherRequest where
  key : List Byte
  block : Block
  deriving DecidableEq, Repr

/-- The state of the core (R33, R59) and, in the last three fields, the model's own record of its surroundings. -/
structure State where
  /-- CTRL (R34). -/
  ctrl : Ctrl
  /-- STATUS.DONE (R40). -/
  done : Bool
  /-- STATUS.ERR (R41). -/
  err : Bool
  /-- STATUS.ERR_CODE (R41, R300). -/
  errCode : ErrCode
  /-- STATUS.CTR_WRAP, sticky (R42). -/
  ctrWrap : Bool
  /-- STATUS.WERR, sticky (R43). -/
  werr : Bool
  /-- STATUS.SEQ (R44). -/
  seq : FlowState
  /-- STATUS.PARTIAL (R44). -/
  partialBlk : Bool
  /-- The in-flight command word; STATUS.BUSY is 1 exactly when there is one (R39, R59; log entry 10). -/
  inFlight : Option Word
  /-- CMD read-back: the last accepted command word (R57). -/
  cmd : Word
  /-- BLKCNT (R56). -/
  blkcnt : BitVec 32
  /-- LEN_A (R55). -/
  lenA : BitVec 64
  /-- LEN_C (R55). -/
  lenC : BitVec 64
  /-- KEY, byte 0 in bits [255:248] (R45, R85). -/
  key : BitVec 256
  /-- NONCE, byte 0 in bits [95:88] (R46). -/
  nonce : BitVec 96
  /-- DIN (R47). -/
  din : Block
  /-- DOUT (R48). -/
  dout : Block
  /-- CTR (R49). -/
  ctr : Block
  /-- J0 (R50). -/
  j0 : Block
  /-- H (R51). -/
  h : Block
  /-- X (R52). -/
  x : Block
  /-- TAG (R53). -/
  tag : Block
  /-- A (R54). -/
  a : Block
  /-- B (R54). -/
  b : Block
  /-- Z (R54). -/
  z : Block
  /-- The model's own: the steps still to come, in their total order (R97; log entry 1). -/
  agenda : List Event
  /-- The model's own: what the host has observed, newest first (R15; log entry 6). -/
  busLog : List BusReply
  /-- The model's own: the requests made at the cipher port, newest first (R320, R322; log entry 7). -/
  portLog : List CipherRequest
  deriving DecidableEq, Repr

/-- Reasons the machine could stop with a fault. There is none: the core has no trap (R312), every word is accepted
(R152) and every accepted command completes (R155), so the type has no constructor. Safe (log entry 25). -/
inductive Fault where
  deriving DecidableEq, Repr

/-- Reasons a step could be refused. -/
inductive Refusal where
  /-- An instruction without a meaning in the model, by its mnemonic. Raised by nothing: every arm of exec has its
  meaning. Safe. -/
  | notModelled (mnemonic : String)
  deriving DecidableEq, Repr

/-- The core right after reset: every field as R351 states it; the model's own lists are empty (log entries 1, 6
and 7, DESIGN CHOICE). -/
def State.reset : State where
  ctrl := { keyLen := 0#6, nonceLen := 0#5, keepH := false, irqEn := false }
  done := false
  err := false
  errCode := .none
  ctrWrap := false
  werr := false
  seq := .idle
  partialBlk := false
  inFlight := none
  cmd := 0#32
  blkcnt := 0#32
  lenA := 0#64
  lenC := 0#64
  key := 0#256
  nonce := 0#96
  din := 0#128
  dout := 0#128
  ctr := 0#128
  j0 := 0#128
  h := 0#128
  x := 0#128
  tag := 0#128
  a := 0#128
  b := 0#128
  z := 0#128
  agenda := []
  busLog := []
  portLog := []

end Sys2Proof.Machine
end

