-- ==== Sys2Proof/Machine/Flags.lean ====
section
/-!
DEFINITION. The status and control words and the interrupt: how the fields of STATUS and CTRL stand in their words,
what a W1C write clears, and the flow predicates the commands read (spec/10_state.md R34, R38 to R44;
spec/40_command_cycle.md R162, R163; spec/60_exceptions.md R300, R315).
-/

namespace Sys2Proof.Machine

/-- The 3-bit value of STATUS.SEQ (R44). -/
def FlowState.code : FlowState → BitVec 3
  | .idle => 0#3
  | .ghAad => 1#3
  | .ghText => 2#3
  | .slAad => 3#3
  | .slText => 4#3

/-- The 4-bit value of STATUS.ERR_CODE (R300). -/
def ErrCode.code : ErrCode → BitVec 4
  | .none => 0#4
  | .illegalCommand => 1#4
  | .badBlockLength => 2#4
  | .sequence => 3#4
  | .invalidKeyLength => 4#4
  | .unsupportedNonceLength => 5#4
  | .messageTooLong => 6#4
  | .lengthOverflow => 7#4
  | .authenticationFailure => 8#4

/-- A seal flow: SL_AAD or SL_TEXT (R93, R160). -/
def FlowState.isSeal : FlowState → Bool
  | .slAad => true
  | .slText => true
  | .idle => false
  | .ghAad => false
  | .ghText => false

/-- A GHASH-only flow: GH_AAD or GH_TEXT (R93). -/
def FlowState.isGhash : FlowState → Bool
  | .ghAad => true
  | .ghText => true
  | .idle => false
  | .slAad => false
  | .slText => false

/-- STATUS.BUSY (R39). -/
def busy (s : State) : Bool := s.inFlight.isSome

/-- The interrupt output: CTRL.IRQ_EN AND STATUS.DONE (R315). -/
def irq (s : State) : Bool := s.ctrl.irqEn && s.done

/-- One bit as a bit vector. -/
def bit (b : Bool) : BitVec 1 := BitVec.ofBool b

/-- The STATUS word (R38): bits [31:14] 0, PARTIAL 13, SEQ [12:10], WERR 9, CTR_WRAP 8, ERR_CODE [7:4], bit 3 0,
ERR 2, DONE 1, BUSY 0. -/
def statusWord (s : State) : Word :=
  0#18 ++ bit s.partialBlk ++ s.seq.code ++ bit s.werr ++ bit s.ctrWrap ++ s.errCode.code ++ 0#1 ++ bit s.err
    ++ bit s.done ++ bit (busy s)

/-- A BusWrite to STATUS clears DONE, CTR_WRAP and WERR where its data bit is 1 and changes nothing else (R38). -/
def writeStatus (d : Word) (s : State) : State :=
  { s with
    done := s.done && !d.getLsbD 1
    ctrWrap := s.ctrWrap && !d.getLsbD 8
    werr := s.werr && !d.getLsbD 9 }

/-- The CTRL word (R34): bits [31:18] 0, IRQ_EN 17, KEEP_H 16, [15:13] 0, NONCE_LEN [12:8], [7:6] 0, KEY_LEN [5:0]. -/
def ctrlWord (c : Ctrl) : Word :=
  0#14 ++ bit c.irqEn ++ bit c.keepH ++ 0#3 ++ c.nonceLen ++ 0#2 ++ c.keyLen

/-- CTRL as a write of `d` leaves it: every field replaced at once, reserved bits dropped (R34). -/
def ctrlOfWord (d : Word) : Ctrl where
  keyLen := d.extractLsb' 0 6
  nonceLen := d.extractLsb' 8 5
  keepH := d.getLsbD 16
  irqEn := d.getLsbD 17

/-- `aadOK(F)` for the flow whose associated-data phase is `aad` (R163). -/
def aadOK (aad : FlowState) (s : State) : Bool :=
  decide (s.seq = aad) && !s.partialBlk

/-- `textOK(F)` for the flow with the phases `aad` and `text` (R163). -/
def textOK (aad text : FlowState) (s : State) : Bool :=
  decide (s.seq = aad) || (decide (s.seq = text) && !s.partialBlk)

end Sys2Proof.Machine
end

