-- ==== Sys2Proof/Machine/Gf128.lean ====
section
/-!
DEFINITION. The field operations of GF(2^128) in the GCM bit convention (spec/41_gf128.md R180, R182, R187).
-/

namespace Sys2Proof.Machine

/-- The reduction constant R: 0xE1 followed by 120 zero bits, a constant of the hardware (R182, R187). -/
def gfReduction : Block := 0xE1000000000000000000000000000000#128

/-- The element one: only bit 127 set (R184). -/
def gfOne : Block := 0x80000000000000000000000000000000#128

/-- Addition is XOR (R180). -/
def gfAdd (a b : Block) : Block := a ^^^ b

/-- The "right shift with reduction" of the working copy r (R182), which multiplies r(x) by x (R183). -/
def gfShift (r : Block) : Block :=
  if r.getLsbD 0 then (r >>> 1) ^^^ gfReduction else r >>> 1

/-- The loop of R182 from bit position `k - 1` down to 0 of `a`. -/
def gfMulLoop (a : Block) : Nat → Block → Block → Block
  | 0, _, sum => sum
  | pos + 1, r, sum => gfMulLoop a pos (gfShift r) (if a.getLsbD pos then sum ^^^ r else sum)

/-- Multiplication: the algorithm of R182, bit 127 of `a` first. -/
def gfMul (a b : Block) : Block := gfMulLoop a 128 b 0#128

end Sys2Proof.Machine
end

