-- ==== Sys2Proof/Machine/Operands.lean ====
section
/-!
DEFINITION. Operand forms: the block length and its mask, the key bytes, the counter block and its increment, the
length block, and the words of a wide register (spec/00_scope.md R12; spec/20_memory.md R85; spec/42_counter.md R200 to
R203; spec/43_ghash.md R226).
-/

namespace Sys2Proof.Machine

/-- A block length that makes a length command complete with BAD_BLOCK_LENGTH: 0 or above 16 (R121, R302). -/
def badBlockLength (n : BitVec 5) : Bool :=
  decide (n.toNat = 0) || decide (16 < n.toNat)

/-- `mask(v, n)`: bytes 0..n-1 of `v` kept, bytes n..15 zero (R202). -/
def mask (v : Block) (n : Nat) : Block :=
  v &&& (BitVec.ofNat 128 (2 ^ (8 * n) - 1) <<< (128 - 8 * n))

/-- `inc32(v)`: the last 4 bytes plus 1 modulo 2^32, the first 12 untouched, and whether the field wrapped (R200). -/
def inc32 (v : Block) : Block × Bool :=
  (v.extractLsb' 32 96 ++ (v.extractLsb' 0 32 + 1#32), v.extractLsb' 0 32 == 0xFFFFFFFF#32)

/-- The counter block of a nonce: `nonce || 0x00000001` (R203). -/
def initCounter (nonce : BitVec 96) : Block := nonce ++ 1#32

/-- The length block `LEN_A || LEN_C` (R226). -/
def lengthBlock (lenA lenC : BitVec 64) : Block := lenA ++ lenC

/-- Byte `i` of a Block, byte 0 the most significant (R11). -/
def blockByte (v : Block) (i : Nat) : Byte := v.extractLsb' (120 - 8 * i) 8

/-- Byte `i` of KEY, byte 0 in bits [255:248] (R45). -/
def keyByte (k : BitVec 256) (i : Nat) : Byte := k.extractLsb' (248 - 8 * i) 8

/-- The first `len` of the 32 bytes of KEY, in order 0, 1, ... (R12, R45; a length above 32, which no command that
checks it uses, gives all 32: log entry 24). -/
def keyBytesOf (k : BitVec 256) (len : Nat) : List Byte :=
  ((List.range 32).map (keyByte k)).take len

/-- `keyBytes()`: the first CTRL.KEY_LEN bytes of KEY (R12, R45). -/
def keyBytes (s : State) : List Byte := keyBytesOf s.key s.ctrl.keyLen.toNat

/-- CTRL.KEY_LEN holds one of 16, 24 and 32 (R35). -/
def keyLenLegal (s : State) : Bool :=
  s.ctrl.keyLen == 16#6 || s.ctrl.keyLen == 24#6 || s.ctrl.keyLen == 32#6

/-- CTRL.NONCE_LEN holds 12 (R36). -/
def nonceLenLegal (s : State) : Bool := s.ctrl.nonceLen == 12#5

/-- Adding one block of `n` bytes would make a bit length reach 2^64 (R229, R307). -/
def lenOverflows (len : BitVec 64) (n : BitVec 5) : Bool :=
  decide (2 ^ 64 ≤ len.toNat + 8 * n.toNat)

/-- A bit length advanced by one block of `n` bytes (R55). -/
def lenAdd (len : BitVec 64) (n : BitVec 5) : BitVec 64 :=
  len + BitVec.ofNat 64 (8 * n.toNat)

/-- A block shorter than 16 bytes (R44, R162). -/
def shortBlock (n : BitVec 5) : Bool := decide (n.toNat < 16)

/-- Word `k` of a wide register, word 0 the most significant (R85). -/
def wordAt {w : Nat} (v : BitVec w) (k : Nat) : Word := v.extractLsb' (w - 32 * (k + 1)) 32

/-- A wide register with its word `k` replaced (R85, R87). -/
def setWordAt {w : Nat} (v : BitVec w) (k : Nat) (d : Word) : BitVec w :=
  (v &&& ~~~(BitVec.ofNat w 0xFFFFFFFF <<< (w - 32 * (k + 1)))) ||| (d.setWidth w <<< (w - 32 * (k + 1)))

end Sys2Proof.Machine
end

