-- ==== Sys2Proof/Machine/Ops.lean ====
section
/-!
DEFINITION. The shared operations of the command cycle: acceptance, successful completion, raising an error (the one
form of exception this hardware has) with the seal abort, the GHASH absorption and the cipher call
(spec/40_command_cycle.md R152 to R163; spec/60_exceptions.md R311 to R313, R320).
-/

namespace Sys2Proof.Machine

/-- Acceptance of the command word `w`: CMD read-back, BUSY, and DONE, ERR and ERR_CODE cleared; nothing else
changes (R152). -/
def accept (w : Word) (s : State) : State :=
  { s with cmd := w, inFlight := some w, done := false, err := false, errCode := .none }

/-- Part (3) of the completion step: BUSY <- 0, DONE <- 1 (R155). -/
def finish (s : State) : State := { s with inFlight := none, done := true }

/-- The state a successful completion leaves, the command's register writes already in `s`: ERR and ERR_CODE are 0,
BUSY is 0, DONE is 1 (R41, R155; log entry 9). -/
def okState (s : State) : State := finish { s with err := false, errCode := .none }

/-- Successful completion (R155 part (1)). -/
def succeed (s : State) : Host.Outcome State Fault Refusal := .next (okState s)

/-- ABORT: the writes of R159. It leaves CTRL, KEY, NONCE, DIN, A, B, Z, CTR_WRAP and WERR unchanged. -/
def abort (s : State) : State :=
  { s with
    seq := .idle
    partialBlk := false
    x := 0#128
    tag := 0#128
    dout := 0#128
    j0 := 0#128
    ctr := 0#128
    lenA := 0#64
    lenC := 0#64
    blkcnt := 0#32
    h := if s.ctrl.keepH then s.h else 0#128 }

/-- The state a failed completion leaves: ERR and ERR_CODE set, none of the command's own writes, ABORT when the command
was accepted in a seal flow, BUSY 0 and DONE 1 (R155, R157, R160, R311). -/
def errState (e : ErrCode) (s : State) : State :=
  finish { (if s.seq.isSeal then abort s else s) with err := true, errCode := e }

/-- `raise Err(CODE)`: taking the one exception of this hardware (R158). There is no vector, no saved state and no
return from it (R312, R313). -/
def raiseErr (e : ErrCode) (s : State) : Host.Outcome State Fault Refusal := .next (errState e s)

/-- `E(keyBytes(), v)`: what the cipher port answers (R12, R320). -/
def cipher (s : State) (v : Block) : Block := Config.blockCipher (keyBytes s) v

/-- The state after a request for `v` has been made at the cipher port (R320; log entry 7). -/
def request (v : Block) (s : State) : State :=
  { s with portLog := { key := keyBytes s, block := v } :: s.portLog }

/-- `absorb(v)`: the accumulator after one block, `gfMul(gfAdd(X, v), H)` (R163). -/
def absorb (x h v : Block) : Block := gfMul (gfAdd x v) h

end Sys2Proof.Machine
end

