-- ==== Sys2Proof/Machine/Counter.lean ====
section
/-!
DEFINITION. The counter engine and the keystream datapath: CTR_INIT, CTR_INC and KS_XOR (spec/42_counter.md R205 to
R207). Checks stand in the order of spec/60_exceptions.md R310.
-/

namespace Sys2Proof.Machine

/-- CTR_INIT: CTR <- NONCE || 0x00000001 (R205). -/
def execCtrInit (s : State) : Host.Outcome State Fault Refusal :=
  if s.seq.isSeal then raiseErr .sequence s
  else if !nonceLenLegal s then raiseErr .unsupportedNonceLength s
  else succeed { s with ctr := initCounter s.nonce }

/-- CTR_INC: CTR <- inc32(CTR), CTR_WRAP set on a wrap (R206). -/
def execCtrInc (s : State) : Host.Outcome State Fault Refusal :=
  if s.seq.isSeal then raiseErr .sequence s
  else succeed { s with ctr := (inc32 s.ctr).1, ctrWrap := s.ctrWrap || (inc32 s.ctr).2 }

/-- KS_XOR n: one chunk of the keystream (R204, R207). -/
def execKsXor (n : BitVec 5) (s : State) : Host.Outcome State Fault Refusal :=
  if badBlockLength n then raiseErr .badBlockLength s
  else if s.seq.isSeal then raiseErr .sequence s
  else if !keyLenLegal s then raiseErr .invalidKeyLength s
  else succeed { request s.ctr s with
    dout := mask (gfAdd s.din (cipher s s.ctr)) n.toNat
    ctr := (inc32 s.ctr).1
    ctrWrap := s.ctrWrap || (inc32 s.ctr).2 }

end Sys2Proof.Machine
end

