-- ==== Sys2Proof/Machine/Field.lean ====
section
/-!
DEFINITION. The field arithmetic commands GF_ADD and GF_MUL (spec/41_gf128.md R185, R186).
-/

namespace Sys2Proof.Machine

/-- GF_ADD: Z <- gfAdd(A, B) (R185). -/
def execGfAdd (s : State) : Host.Outcome State Fault Refusal :=
  succeed { s with z := gfAdd s.a s.b }

/-- GF_MUL: Z <- gfMul(A, B) (R186). -/
def execGfMul (s : State) : Host.Outcome State Fault Refusal :=
  succeed { s with z := gfMul s.a s.b }

end Sys2Proof.Machine
end

