-- ==== Sys2Proof/Machine/Ghash.lean ====
section
/-!
DEFINITION. The hash subkey and the GHASH-only flow: H_DERIVE, GHASH_INIT, GHASH_AAD, GHASH_TEXT and GHASH_FINAL
(spec/43_ghash.md R230 to R234). Checks stand in the order of spec/60_exceptions.md R310.
-/

namespace Sys2Proof.Machine

/-- H_DERIVE: H <- E(keyBytes(), zero block), whatever KEEP_H holds (R230). -/
def execHDerive (s : State) : Host.Outcome State Fault Refusal :=
  if s.seq ≠ .idle then raiseErr .sequence s
  else if !keyLenLegal s then raiseErr .invalidKeyLength s
  else succeed { request 0#128 s with h := cipher s 0#128 }

/-- GHASH_INIT: a new GHASH-only flow, from IDLE or in place of a GHASH-only flow (R231). -/
def execGhashInit (s : State) : Host.Outcome State Fault Refusal :=
  if s.seq.isSeal then raiseErr .sequence s
  else succeed { s with x := 0#128, lenA := 0#64, lenC := 0#64, seq := .ghAad, partialBlk := false }

/-- GHASH_AAD n: one associated-data block (R232). -/
def execGhashAad (n : BitVec 5) (s : State) : Host.Outcome State Fault Refusal :=
  if badBlockLength n then raiseErr .badBlockLength s
  else if !aadOK .ghAad s then raiseErr .sequence s
  else if lenOverflows s.lenA n then raiseErr .lengthOverflow s
  else succeed { s with
    x := absorb s.x s.h (mask s.din n.toNat)
    lenA := lenAdd s.lenA n
    partialBlk := shortBlock n }

/-- GHASH_TEXT n: one text block, taken as ciphertext (R233). -/
def execGhashText (n : BitVec 5) (s : State) : Host.Outcome State Fault Refusal :=
  if badBlockLength n then raiseErr .badBlockLength s
  else if !textOK .ghAad .ghText s then raiseErr .sequence s
  else if lenOverflows s.lenC n then raiseErr .lengthOverflow s
  else succeed { s with
    x := absorb s.x s.h (mask s.din n.toNat)
    lenC := lenAdd s.lenC n
    seq := .ghText
    partialBlk := shortBlock n }

/-- GHASH_FINAL: the length block and the end of the flow; LEN_A and LEN_C are kept (R234). -/
def execGhashFinal (s : State) : Host.Outcome State Fault Refusal :=
  if !s.seq.isGhash then raiseErr .sequence s
  else succeed { s with
    x := absorb s.x s.h (lengthBlock s.lenA s.lenC)
    seq := .idle
    partialBlk := false }

end Sys2Proof.Machine
end

