-- ==== Sys2Proof/Machine/Housekeeping.lean ====
section
/-!
DEFINITION. The housekeeping commands NOP and CLEAR (spec/40_command_cycle.md R170, R171).
-/

namespace Sys2Proof.Machine

/-- NOP: success with no writes (R170). -/
def execNop (s : State) : Host.Outcome State Fault Refusal := succeed s

/-- CLEAR: the flow and result registers to zero, H whatever KEEP_H holds, SEQ to IDLE (R171). -/
def execClear (s : State) : Host.Outcome State Fault Refusal :=
  succeed { s with
    x := 0#128
    h := 0#128
    tag := 0#128
    dout := 0#128
    j0 := 0#128
    ctr := 0#128
    z := 0#128
    lenA := 0#64
    lenC := 0#64
    blkcnt := 0#32
    seq := .idle
    partialBlk := false }

end Sys2Proof.Machine
end

