-- ==== Sys2Proof/Machine/Seal.lean ====
section
/-!
DEFINITION. The seal orchestrator: SEAL_INIT, SEAL_AAD, SEAL_PT and SEAL_FINAL (spec/44_seal.md R255 to R258). Checks
stand in the order of spec/60_exceptions.md R310.
-/

namespace Sys2Proof.Machine

/-- The block count at which a further SEAL_PT is refused: 2^32 - 2 (R262). -/
def maxBlocks : BitVec 32 := 0xFFFFFFFE#32

/-- SEAL_INIT: J0 and the first counter, the hash subkey when KEEP_H = 0, and a cleared flow (R255). -/
def execSealInit (s : State) : Host.Outcome State Fault Refusal :=
  if s.seq.isSeal then raiseErr .sequence s
  else if !keyLenLegal s then raiseErr .invalidKeyLength s
  else if !nonceLenLegal s then raiseErr .unsupportedNonceLength s
  else succeed { (if s.ctrl.keepH then s else { request 0#128 s with h := cipher s 0#128 }) with
    j0 := initCounter s.nonce
    ctr := (inc32 (initCounter s.nonce)).1
    x := 0#128
    tag := 0#128
    dout := 0#128
    lenA := 0#64
    lenC := 0#64
    blkcnt := 0#32
    seq := .slAad
    partialBlk := false }

/-- SEAL_AAD n: one associated-data block of a seal (R256). -/
def execSealAad (n : BitVec 5) (s : State) : Host.Outcome State Fault Refusal :=
  if badBlockLength n then raiseErr .badBlockLength s
  else if !aadOK .slAad s then raiseErr .sequence s
  else if lenOverflows s.lenA n then raiseErr .lengthOverflow s
  else succeed { s with
    x := absorb s.x s.h (mask s.din n.toNat)
    lenA := lenAdd s.lenA n
    partialBlk := shortBlock n }

/-- The ciphertext chunk of SEAL_PT n: DIN under the keystream block of CTR, bytes n..15 zero (R257). -/
def sealChunk (n : BitVec 5) (s : State) : Block := mask (gfAdd s.din (cipher s s.ctr)) n.toNat

/-- SEAL_PT n: one plaintext block encrypted, then its ciphertext absorbed (R257). -/
def execSealPt (n : BitVec 5) (s : State) : Host.Outcome State Fault Refusal :=
  if badBlockLength n then raiseErr .badBlockLength s
  else if !textOK .slAad .slText s then raiseErr .sequence s
  else if s.blkcnt == maxBlocks then raiseErr .messageTooLong s
  else succeed { request s.ctr s with
    dout := sealChunk n s
    ctr := (inc32 s.ctr).1
    ctrWrap := s.ctrWrap || (inc32 s.ctr).2
    blkcnt := s.blkcnt + 1#32
    x := absorb s.x s.h (sealChunk n s)
    lenC := lenAdd s.lenC n
    seq := .slText
    partialBlk := shortBlock n }

/-- SEAL_FINAL: the length block, the tag, and H dropped unless it is kept (R258). -/
def execSealFinal (s : State) : Host.Outcome State Fault Refusal :=
  if !s.seq.isSeal then raiseErr .sequence s
  else succeed { request s.j0 s with
    x := absorb s.x s.h (lengthBlock s.lenA s.lenC)
    tag := gfAdd (cipher s s.j0) (absorb s.x s.h (lengthBlock s.lenA s.lenC))
    h := if s.ctrl.keepH then s.h else 0#128
    seq := .idle
    partialBlk := false }

end Sys2Proof.Machine
end

