-- ==== Sys2Proof/Machine/Dispatch.lean ====
section
/-!
DEFINITION. exec: the completion step of each command (spec/40_command_cycle.md R151, R155), one arm a command.
-/

namespace Sys2Proof.Machine

def exec (i : Instr) (s : State) : Host.Outcome State Fault Refusal :=
  match i with
  | .nop => Sys2Proof.Machine.execNop s
  | .gfAdd => Sys2Proof.Machine.execGfAdd s
  | .gfMul => Sys2Proof.Machine.execGfMul s
  | .ctrInit => Sys2Proof.Machine.execCtrInit s
  | .ctrInc => Sys2Proof.Machine.execCtrInc s
  | .ksXor n => Sys2Proof.Machine.execKsXor n s
  | .hDerive => Sys2Proof.Machine.execHDerive s
  | .ghashInit => Sys2Proof.Machine.execGhashInit s
  | .ghashAad n => Sys2Proof.Machine.execGhashAad n s
  | .ghashText n => Sys2Proof.Machine.execGhashText n s
  | .ghashFinal => Sys2Proof.Machine.execGhashFinal s
  | .sealInit => Sys2Proof.Machine.execSealInit s
  | .sealAad n => Sys2Proof.Machine.execSealAad n s
  | .sealPt n => Sys2Proof.Machine.execSealPt n s
  | .sealFinal => Sys2Proof.Machine.execSealFinal s
  | .clear => Sys2Proof.Machine.execClear s

end Sys2Proof.Machine
end

