-- ==== Sys2Proof/Machine/Window.lean ====
section
/-!
DEFINITION. The register window: its map, what a word reads as, what a write to it does, and the flow locks
(spec/20_memory.md R84 to R93; spec/10_state.md R31, R33).
-/

namespace Sys2Proof.Machine

/-- The 128-bit registers of the window (R33). -/
inductive BlockReg where
  | din
  | dout
  | ctr
  | j0
  | h
  | x
  | tag
  | a
  | b
  | z
  deriving DecidableEq, Repr

/-- The words of the window (R84). -/
inductive WinReg where
  | id
  | ctrl
  | status
  | cmd
  | blkcnt
  | lenAHi
  | lenALo
  | lenCHi
  | lenCLo
  | key (k : Fin 8)
  | nonce (k : Fin 3)
  | block (r : BlockReg) (k : Fin 4)
  deriving DecidableEq, Repr

/-- The value of ID, always (R31). -/
def idValue : Word := 0x47434D01#32

/-- The offset of word 0 of a 128-bit register (R33, R84). -/
def BlockReg.base : BlockReg → Nat
  | .din => 0x070
  | .dout => 0x080
  | .ctr => 0x090
  | .j0 => 0x0A0
  | .h => 0x0B0
  | .x => 0x0C0
  | .tag => 0x0D0
  | .a => 0x0E0
  | .b => 0x0F0
  | .z => 0x100

/-- The offset of a word of the window (R84). -/
def WinReg.offset : WinReg → Offset
  | .id => 0x000#12
  | .ctrl => 0x004#12
  | .status => 0x008#12
  | .cmd => 0x00C#12
  | .blkcnt => 0x010#12
  | .lenAHi => 0x014#12
  | .lenALo => 0x018#12
  | .lenCHi => 0x01C#12
  | .lenCLo => 0x020#12
  | .key k => BitVec.ofNat 12 (0x040 + 4 * k.val)
  | .nonce k => BitVec.ofNat 12 (0x060 + 4 * k.val)
  | .block r k => BitVec.ofNat 12 (r.base + 4 * k.val)

/-- The 128-bit register that holds the 16 bytes from offset 16 * `line` on (R84). -/
def blockAt (line : Nat) : Option BlockReg :=
  if line = 0x07 then some .din
  else if line = 0x08 then some .dout
  else if line = 0x09 then some .ctr
  else if line = 0x0A then some .j0
  else if line = 0x0B then some .h
  else if line = 0x0C then some .x
  else if line = 0x0D then some .tag
  else if line = 0x0E then some .a
  else if line = 0x0F then some .b
  else if line = 0x10 then some .z
  else none

/-- The register map (R84): the word at a byte offset; none where the offset is unmapped or no multiple of 4. -/
def regAt (off : Offset) : Option WinReg :=
  if off.toNat % 4 ≠ 0 then none
  else if off.toNat = 0x000 then some .id
  else if off.toNat = 0x004 then some .ctrl
  else if off.toNat = 0x008 then some .status
  else if off.toNat = 0x00C then some .cmd
  else if off.toNat = 0x010 then some .blkcnt
  else if off.toNat = 0x014 then some .lenAHi
  else if off.toNat = 0x018 then some .lenALo
  else if off.toNat = 0x01C then some .lenCHi
  else if off.toNat = 0x020 then some .lenCLo
  else if 0x040 ≤ off.toNat ∧ off.toNat ≤ 0x05C then some (.key (Fin.ofNat 8 ((off.toNat - 0x040) / 4)))
  else if 0x060 ≤ off.toNat ∧ off.toNat ≤ 0x068 then some (.nonce (Fin.ofNat 3 ((off.toNat - 0x060) / 4)))
  else
    match blockAt (off.toNat / 16) with
    | some r => some (.block r (Fin.ofNat 4 (off.toNat % 16 / 4)))
    | none => none

/-- The value of a 128-bit register. -/
def readBlock (r : BlockReg) (s : State) : Block :=
  match r with
  | .din => s.din
  | .dout => s.dout
  | .ctr => s.ctr
  | .j0 => s.j0
  | .h => s.h
  | .x => s.x
  | .tag => s.tag
  | .a => s.a
  | .b => s.b
  | .z => s.z

/-- A 128-bit register replaced. Only the writable ones, DIN, CTR, H, A and B, are ever asked for (R87, R89); for the
read-only ones nothing changes. -/
def putBlock (r : BlockReg) (v : Block) (s : State) : State :=
  match r with
  | .din => { s with din := v }
  | .ctr => { s with ctr := v }
  | .h => { s with h := v }
  | .a => { s with a := v }
  | .b => { s with b := v }
  | .dout => s
  | .j0 => s
  | .x => s
  | .tag => s
  | .z => s

/-- What a BusRead of a mapped word returns: its current value, and 0 for the write-only KEY words (R86, R90). -/
def readReg (r : WinReg) (s : State) : Word :=
  match r with
  | .id => idValue
  | .ctrl => ctrlWord s.ctrl
  | .status => statusWord s
  | .cmd => s.cmd
  | .blkcnt => s.blkcnt
  | .lenAHi => wordAt s.lenA 0
  | .lenALo => wordAt s.lenA 1
  | .lenCHi => wordAt s.lenC 0
  | .lenCLo => wordAt s.lenC 1
  | .key _ => 0#32
  | .nonce k => wordAt s.nonce k.val
  | .block v k => wordAt (readBlock v s) k.val

/-- The read-only words: a write to one is ignored without WERR (R33, R89). -/
def WinReg.readOnly : WinReg → Bool
  | .id => true
  | .ctrl => false
  | .status => false
  | .cmd => false
  | .blkcnt => true
  | .lenAHi => true
  | .lenALo => true
  | .lenCHi => true
  | .lenCLo => true
  | .key _ => false
  | .nonce _ => false
  | .block .din _ => false
  | .block .dout _ => true
  | .block .ctr _ => false
  | .block .j0 _ => true
  | .block .h _ => false
  | .block .x _ => true
  | .block .tag _ => true
  | .block .a _ => false
  | .block .b _ => false
  | .block .z _ => true

/-- The words locked in a seal flow: CTRL, KEY, NONCE, CTR and H (R93). -/
def WinReg.sealLocked : WinReg → Bool
  | .ctrl => true
  | .key _ => true
  | .nonce _ => true
  | .block .ctr _ => true
  | .block .h _ => true
  | _ => false

/-- The words locked in a GHASH-only flow: H (R93). -/
def WinReg.ghashLocked : WinReg → Bool
  | .block .h _ => true
  | _ => false

/-- A word is locked by the flow that is active (R93). -/
def locked (r : WinReg) (s : State) : Bool :=
  (s.seq.isSeal && r.sealLocked) || (s.seq.isGhash && r.ghashLocked)

/-- Part (6) of a BusWrite: the addressed word replaced by the data, reserved CTRL bits staying 0 (R87). The words that
earlier parts of R87 take are left alone. -/
def storeReg (r : WinReg) (d : Word) (s : State) : State :=
  match r with
  | .ctrl => { s with ctrl := ctrlOfWord d }
  | .key k => { s with key := setWordAt s.key k.val d }
  | .nonce k => { s with nonce := setWordAt s.nonce k.val d }
  | .block v k => putBlock v (setWordAt (readBlock v s) k.val d) s
  | .id => s
  | .status => s
  | .cmd => s
  | .blkcnt => s
  | .lenAHi => s
  | .lenALo => s
  | .lenCHi => s
  | .lenCLo => s

/-- A BusWrite to a mapped word, the parts of R87 in their order: STATUS W1C, BUSY (R92), CMD (R152), read-only (R89),
locked (R93), store. -/
def writeReg (r : WinReg) (d : Word) (s : State) : State :=
  if r = .status then writeStatus d s
  else if busy s then { s with werr := true }
  else if r = .cmd then accept d s
  else if r.readOnly then s
  else if locked r s then { s with werr := true }
  else storeReg r d s

/-- A 32-bit access with all four byte lanes at a multiple of 4 (R88). -/
def Access.legal (acc : Access) : Bool :=
  decide (acc.width = 32) && acc.lanes == 0xF#4 && acc.offset.extractLsb' 0 2 == 0#2

/-- The word an access reaches; none where it is refused with SLVERR (R88, R91). -/
def target (acc : Access) : Option WinReg :=
  if acc.legal then regAt acc.offset else none

/-- BusRead: data and response; it changes no state (R86, R88, R91). -/
def busRead (acc : Access) (s : State) : BusReply :=
  match target acc with
  | some r => { data := readReg r s, resp := .okay }
  | none => { data := 0#32, resp := .slverr }

/-- BusWrite: the state after it (R87); a refused access changes nothing (R88, R91). -/
def busWrite (acc : Access) (d : Word) (s : State) : State :=
  match target acc with
  | some r => writeReg r d s
  | none => s

/-- The response of a BusWrite: OKAY for every mapped word, also when the write is ignored (R87, R89, R92, R93). -/
def busWriteReply (acc : Access) : BusReply :=
  match target acc with
  | some _ => { data := 0#32, resp := .okay }
  | none => { data := 0#32, resp := .slverr }

/-- The legal 32-bit access to a word of the window (R88). -/
def WinReg.access (r : WinReg) : Access where
  offset := r.offset
  width := 32
  lanes := 0xF#4

end Sys2Proof.Machine
end

