-- ==== Sys2Proof/Machine/Sequencer.lean ====
section
/-!
DEFINITION. The completion step and the host's steps (spec/40_command_cycle.md R155; spec/20_memory.md R86, R87, R97;
spec/70_reset_and_hazards.md R350, R352): what one event of the agenda does.
-/

namespace Sys2Proof.Machine

/-- The completion of an accepted word: its command, also one with an illegal block length, runs as exec says; a word
that is no command completes with ILLEGAL_COMMAND (R126, R127, R155, R301). -/
def runWord (w : Word) (s : State) : Host.Outcome State Fault Refusal :=
  match decode w with
  | .command i => exec i s
  | .badLen i => exec i s
  | .illegal _ => raiseErr .illegalCommand s

/-- The completion step, enabled when a command is in flight; otherwise nothing happens (R155; log entry 14). -/
def completion (s : State) : Host.Outcome State Fault Refusal :=
  match s.inFlight with
  | some w => runWord w s
  | none => .next s

/-- The host's BusRead: the reply is observed, no register changes (R15, R86). -/
def hostRead (acc : Access) (s : State) : State :=
  { s with busLog := busRead acc s :: s.busLog }

/-- The host's BusWrite and its observed response (R15, R87). -/
def hostWrite (acc : Access) (d : Word) (s : State) : State :=
  { busWrite acc d s with busLog := busWriteReply acc :: s.busLog }

/-- Reset: every register at its reset value, an in-flight command discarded (R350 to R352). What the host has
observed, what the port was asked and what the host will do next are outside the core and stay. -/
def resetCore (s : State) : State :=
  { State.reset with agenda := s.agenda, busLog := s.busLog, portLog := s.portLog }

/-- One event (R97), the agenda already advanced in `s`. -/
def perform (e : Event) (s : State) : Host.Outcome State Fault Refusal :=
  match e with
  | .read acc => .next (hostRead acc s)
  | .write acc d => .next (hostWrite acc d s)
  | .complete => completion s
  | .reset => .next (resetCore s)

end Sys2Proof.Machine
end

