-- ==== Sys2Proof/Machine/Step.lean ====
section
/-!
DEFINITION. One step of the total order of host accesses and completion steps (spec/20_memory.md R97), and how a
command word is put where the next step runs it.
-/

namespace Sys2Proof.Machine

/-- One step: the next event of the agenda. When the agenda is exhausted a command in flight still completes, since
every accepted command does (R155), and an idle core holds its state (R317). -/
def step (s : State) : Host.Outcome State Fault Refusal :=
  match s.agenda with
  | [] => completion s
  | e :: rest => perform e { s with agenda := rest }

/-- An agenda whose next step is the completion of the command in flight: an empty one is such already. -/
def completeNext (agenda : List Event) : List Event :=
  match agenda with
  | [] => []
  | e :: rest => .complete :: e :: rest

/-- `s` with the command word `w` accepted (R152) and its completion the very next step (log entry 2). -/
def State.withFetchWord (s : State) (nbits w : Nat) : State :=
  { accept (BitVec.ofNat 32 (w % 2 ^ nbits)) s with agenda := completeNext s.agenda }

end Sys2Proof.Machine
end

