-- ==== Sys2Proof/Machine/Reference.lean ====
section
/-!
DEFINITION. The source's own operations over byte strings, which the command flows compute block by block: GHASH
(spec/43_ghash.md R220, R221), applyKeystream (spec/42_counter.md R204) and seal (spec/44_seal.md R250). The machine does
not call them; statements compare it with them.
-/

namespace Sys2Proof.Machine

/-- The 16 bytes of a Block, byte 0 first (R11, R225). -/
def blockBytes (v : Block) : List Byte := (List.range 16).map (blockByte v)

/-- The Block of at most 16 bytes, zero-padded on the right (R11, R221). -/
def blockOfBytes (bs : List Byte) : Block :=
  ((bs ++ List.replicate (16 - bs.length) 0#8).take 16).foldl (fun v b => (v <<< 8) ||| b.setWidth 128) 0#128

/-- Successive chunks of 16 bytes, the last one shorter if need be, at most `fuel` of them. -/
def chunksUpTo : Nat → List Byte → List (List Byte)
  | 0, _ => []
  | _ + 1, [] => []
  | fuel + 1, b :: bs => (b :: bs).take 16 :: chunksUpTo fuel ((b :: bs).drop 16)

/-- The blocks of a message as byte strings: bytes 16i .. 16i+15, none for an empty message (R221). -/
def chunks (bs : List Byte) : List (List Byte) := chunksUpTo bs.length bs

/-- The GHASH accumulator after further blocks, each zero-padded (R220, R221). -/
def ghashBlocks (h : Block) (x : Block) (blocks : List (List Byte)) : Block :=
  blocks.foldl (fun y c => gfMul (gfAdd y (blockOfBytes c)) h) x

/-- The bit length of a byte string as a 64-bit value (R226). -/
def bitLength (bs : List Byte) : BitVec 64 := BitVec.ofNat 64 (8 * bs.length)

/-- GHASH(C, A, H) as a Block: associated data first, then the ciphertext, then the length block (R220, R222). -/
def ghash (c a : List Byte) (h : Block) : Block :=
  gfMul (gfAdd (ghashBlocks h (ghashBlocks h 0#128 (chunks a)) (chunks c))
    (lengthBlock (bitLength a) (bitLength c))) h

/-- One chunk under one counter value: its bytes XOR the first bytes of the keystream block (R204). -/
def xorChunk (key : List Byte) (c : Block) (d : List Byte) : List Byte :=
  List.zipWith (fun p m => p ^^^ m) d (blockBytes (Config.blockCipher key c))

/-- The chunks of a message under successive counter values, in order (R204). -/
def keystreamChunks (key : List Byte) : Block → List (List Byte) → List Byte
  | _, [] => []
  | c, d :: ds => xorChunk key c d ++ keystreamChunks key (inc32 c).1 ds

/-- `applyKeystream(data, key, startCounter)` (R204, R208). -/
def applyKeystream (data key : List Byte) (start : Block) : List Byte :=
  keystreamChunks key start (chunks data)

/-- The ciphertext of `seal` (R250 step 2). -/
def sealCiphertext (plaintext key : List Byte) (nonce : BitVec 96) : List Byte :=
  applyKeystream plaintext key (inc32 (initCounter nonce)).1

/-- The tag of `seal` (R250 steps 1 and 3 to 6). -/
def sealTag (plaintext key : List Byte) (nonce : BitVec 96) (aad : List Byte) : Block :=
  gfAdd (Config.blockCipher key (initCounter nonce))
    (ghash (sealCiphertext plaintext key nonce) aad (Config.blockCipher key 0#128))

/-- `seal(plaintext, key, nonce, associatedData)`: ciphertext, then the 16 bytes of the tag (R250 step 7). -/
def sealMessage (plaintext key : List Byte) (nonce : BitVec 96) (aad : List Byte) : List Byte :=
  sealCiphertext plaintext key nonce ++ blockBytes (sealTag plaintext key nonce aad)

end Sys2Proof.Machine
end

