-- ==== Sys2Proof/Machine/HostNotation.lean ====
section
/-!
DEFINITION. The host notation: the accesses its pseudo-instructions expand to (spec/30_encoding.md R131 to R135), and the
host sequences the spec names for a keystream, a GHASH and a seal (spec/42_counter.md R208; spec/43_ghash.md R235;
spec/44_seal.md R259).
-/

namespace Sys2Proof.Machine

/-- `WR r, d` (R131). -/
def wr (r : WinReg) (d : Word) : Event := .write r.access d

/-- `RD r` (R131). -/
def rd (r : WinReg) : Event := .read r.access

/-- `CMD m` expands to one write of the command word (R132). -/
def cmdEvent (i : Instr) : Event := wr .cmd (encode i)

/-- `CMD .word w`: a raw command word (R131, R132). -/
def cmdWordEvent (w : Word) : Event := wr .cmd w

/-- `REPEAT k { es }`: the operations k times in order (R136). -/
def repeatEvents (k : Nat) (es : List Event) : List Event := (List.replicate k es).flatten

/-- `WR128 V, v` expands to four writes, word 0 first (R133). -/
def wr128 (r : BlockReg) (v : Block) : List Event :=
  [wr (.block r 0) (wordAt v 0), wr (.block r 1) (wordAt v 1), wr (.block r 2) (wordAt v 2), wr (.block r 3) (wordAt v 3)]

/-- `WR96 NONCE, v` expands to three writes (R133). -/
def wr96 (v : BitVec 96) : List Event :=
  [wr (.nonce 0) (wordAt v 0), wr (.nonce 1) (wordAt v 1), wr (.nonce 2) (wordAt v 2)]

/-- `WRKEY k` expands to KEY_LEN / 4 writes, KEY0 first (R133). -/
def wrKey (keyLen : Nat) (k : BitVec 256) : List Event :=
  ((List.finRange 8).take (keyLen / 4)).map (fun j => wr (.key j) (wordAt k j.val))

/-- `RD128 V` expands to four reads, word 0 first (R134). -/
def rd128 (r : BlockReg) : List Event :=
  [rd (.block r 0), rd (.block r 1), rd (.block r 2), rd (.block r 3)]

/-- The boot order of R354: ID read, CTRL, the KEY words of the key length, NONCE. -/
def bootEvents (c : Ctrl) (k : BitVec 256) (nonce : BitVec 96) : List Event :=
  [rd .id, wr .ctrl (ctrlWord c)] ++ wrKey c.keyLen.toNat k ++ wr96 nonce

/-- `POLL` (R135): STATUS read until BUSY = 0, with one step of the machine between two reads, within `fuel` reads. -/
def poll : Nat → State → Option (Word × State)
  | 0, _ => none
  | fuel + 1, s =>
    if (busRead WinReg.status.access s).data.getLsbD 0 then
      match step s with
      | .next t => poll fuel t
      | .fault _ => none
      | .refused _ => none
    else some ((busRead WinReg.status.access s).data, s)

/-- `POLLOK` (R135): the host stops with a failure where ERR is 1. -/
def pollOk (fuel : Nat) (s : State) : Option (Word × State) :=
  (poll fuel s).filter fun r => !r.1.getLsbD 2

/-- The value a `RD128 V` binds when no other step comes between its reads (R134, R96). -/
def rd128Value (r : BlockReg) (s : State) : Block :=
  (busRead (WinReg.block r 0).access s).data ++ (busRead (WinReg.block r 1).access s).data
    ++ (busRead (WinReg.block r 2).access s).data ++ (busRead (WinReg.block r 3).access s).data

/-- The writes of `WR128 V, v` made one after another. -/
def load128 (r : BlockReg) (v : Block) (s : State) : State :=
  busWrite (WinReg.block r 3).access (wordAt v 3)
    (busWrite (WinReg.block r 2).access (wordAt v 2)
      (busWrite (WinReg.block r 1).access (wordAt v 1)
        (busWrite (WinReg.block r 0).access (wordAt v 0) s)))

/-- `CMD i; POLLOK`: the command accepted and completed, none where it completes with an error (R132, R135). -/
def command (i : Instr) (s : State) : Option State :=
  match completion (busWrite WinReg.cmd.access (encode i) s) with
  | .next t => if t.err then none else some t
  | .fault _ => none
  | .refused _ => none

/-- The N field for a chunk of at most 16 bytes. -/
def chunkLen (d : List Byte) : BitVec 5 := BitVec.ofNat 5 d.length

/-- One block of a message: `WR128 DIN, d; CMD m n; POLLOK` with n the chunk's length (R208, R235, R259). -/
def sendBlock (m : BitVec 5 → Instr) (d : List Byte) (s : State) : Option State :=
  command (m (chunkLen d)) (load128 .din (blockOfBytes d) s)

/-- The blocks of a message in order, no output read. -/
def sendBlocks (m : BitVec 5 → Instr) : List (List Byte) → State → Option State
  | [], s => some s
  | d :: ds, s => (sendBlock m d s).bind (sendBlocks m ds)

/-- The blocks of a message in order, the first bytes of DOUT read after each (R208, R259). -/
def cryptBlocks (m : BitVec 5 → Instr) : List (List Byte) → State → Option (List Byte × State)
  | [], s => some ([], s)
  | d :: ds, s =>
    (sendBlock m d s).bind fun t =>
      (cryptBlocks m ds t).map fun r => ((blockBytes (rd128Value .dout t)).take d.length ++ r.1, r.2)

/-- The host sequence of R208 for `applyKeystream`, from the start counter the CTR register holds. -/
def hostKeystream (data : List Byte) (s : State) : Option (List Byte × State) :=
  cryptBlocks .ksXor (chunks data) s

/-- The host sequence of R235: GHASH_INIT, the blocks of A, the blocks of C, GHASH_FINAL. -/
def hostGhash (c a : List Byte) (s : State) : Option State :=
  (command .ghashInit s).bind fun s1 =>
    (sendBlocks .ghashAad (chunks a) s1).bind fun s2 =>
      (sendBlocks .ghashText (chunks c) s2).bind fun s3 => command .ghashFinal s3

/-- The host sequence of R259: SEAL_INIT, the associated data, the plaintext with DOUT read after each block,
SEAL_FINAL, TAG read. -/
def hostSeal (plaintext aad : List Byte) (s : State) : Option (List Byte × State) :=
  (command .sealInit s).bind fun s1 =>
    (sendBlocks .sealAad (chunks aad) s1).bind fun s2 =>
      (cryptBlocks .sealPt (chunks plaintext) s2).bind fun r =>
        (command .sealFinal r.2).map fun t => (r.1 ++ blockBytes (rd128Value .tag t), t)

end Sys2Proof.Machine
end

