-- ==== Sys2Proof/Safety.lean ====
section
/-!
DEFINITION. What a well-behaved state of the core is, in the terms the statements use: the invariants the spec's
prose gives, each with its rule.
-/

namespace Sys2Proof.Machine

/-- STATUS is consistent: ERR is 1 exactly with a code, the code is never a reserved one, PARTIAL is 0 in IDLE, and
while a command is in flight DONE, ERR and ERR_CODE are 0 and CMD holds its word (R41, R44, R57, R152, R156, R309). -/
def State.StatusInv (s : State) : Prop :=
  (s.err = true ↔ s.errCode ≠ .none) ∧
  s.errCode ≠ .authenticationFailure ∧
  (s.seq = .idle → s.partialBlk = false) ∧
  (∀ w, s.inFlight = some w → s.cmd = w ∧ s.done = false ∧ s.err = false ∧ s.errCode = .none)

/-- What a seal flow has fixed: the lengths were checked and are locked, J0 belongs to NONCE, the counter block is J0
with its field advanced by BLKCNT + 1, H is the subkey unless the host keeps its own, the text counters follow BLKCNT,
and in the associated-data phase nothing of the text phase has happened (R93, R255, R257, R262, R263). -/
def State.SealInv (s : State) : Prop :=
  s.seq.isSeal = true →
    keyLenLegal s = true ∧
    nonceLenLegal s = true ∧
    s.j0 = initCounter s.nonce ∧
    s.ctr = s.nonce ++ (s.blkcnt + 2#32) ∧
    (s.ctrl.keepH = false → s.h = cipher s 0#128) ∧
    s.blkcnt.toNat ≤ 2 ^ 32 - 2 ∧
    s.lenC.toNat ≤ 128 * s.blkcnt.toNat ∧
    s.tag = 0#128 ∧
    (s.seq = .slAad → s.blkcnt = 0#32 ∧ s.lenC = 0#64 ∧ s.dout = 0#128)

/-- Every length counter is a whole number of bytes, and BLKCNT never exceeds 2^32 - 2 (R55, R56). -/
def State.LenInv (s : State) : Prop :=
  s.lenA.toNat % 8 = 0 ∧ s.lenC.toNat % 8 = 0 ∧ s.blkcnt.toNat ≤ 2 ^ 32 - 2

/-- The invariant every step keeps. -/
def State.Inv (s : State) : Prop := s.StatusInv ∧ s.SealInv ∧ s.LenInv

/-- No host write has been lost to BUSY or a lock since WERR was last cleared (R43, R362). -/
def State.noLostWrite (s : State) : Prop := s.werr = false

/-- Two states that agree on everything an error code may depend on: CTRL, SEQ, PARTIAL, BLKCNT and the LEN
registers (R318). -/
def State.samePublic (s t : State) : Prop :=
  s.ctrl = t.ctrl ∧ s.seq = t.seq ∧ s.partialBlk = t.partialBlk ∧ s.blkcnt = t.blkcnt ∧ s.lenA = t.lenA ∧ s.lenC = t.lenC

/-- The table of R162, column "legal when": the SEQ and PARTIAL condition of each command. -/
def seqLegal (i : Instr) (s : State) : Prop :=
  match i with
  | .nop => True
  | .gfAdd => True
  | .gfMul => True
  | .clear => True
  | .ctrInit => s.seq ≠ .slAad ∧ s.seq ≠ .slText
  | .ctrInc => s.seq ≠ .slAad ∧ s.seq ≠ .slText
  | .ksXor _ => s.seq ≠ .slAad ∧ s.seq ≠ .slText
  | .hDerive => s.seq = .idle
  | .ghashInit => s.seq ≠ .slAad ∧ s.seq ≠ .slText
  | .ghashAad _ => s.seq = .ghAad ∧ s.partialBlk = false
  | .ghashText _ => s.seq = .ghAad ∨ (s.seq = .ghText ∧ s.partialBlk = false)
  | .ghashFinal => s.seq = .ghAad ∨ s.seq = .ghText
  | .sealInit => s.seq ≠ .slAad ∧ s.seq ≠ .slText
  | .sealAad _ => s.seq = .slAad ∧ s.partialBlk = false
  | .sealPt _ => s.seq = .slAad ∨ (s.seq = .slText ∧ s.partialBlk = false)
  | .sealFinal => s.seq = .slAad ∨ s.seq = .slText

/-- The table of R162, column "SEQ, PARTIAL after success". -/
def seqAfter (i : Instr) (s : State) : FlowState × Bool :=
  match i with
  | .nop => (s.seq, s.partialBlk)
  | .gfAdd => (s.seq, s.partialBlk)
  | .gfMul => (s.seq, s.partialBlk)
  | .clear => (.idle, false)
  | .ctrInit => (s.seq, s.partialBlk)
  | .ctrInc => (s.seq, s.partialBlk)
  | .ksXor _ => (s.seq, s.partialBlk)
  | .hDerive => (s.seq, s.partialBlk)
  | .ghashInit => (.ghAad, false)
  | .ghashAad n => (.ghAad, decide (n.toNat < 16))
  | .ghashText n => (.ghText, decide (n.toNat < 16))
  | .ghashFinal => (.idle, false)
  | .sealInit => (.slAad, false)
  | .sealAad n => (.slAad, decide (n.toNat < 16))
  | .sealPt n => (.slText, decide (n.toNat < 16))
  | .sealFinal => (.idle, false)

/-- The opcodes of the commands without a block length (R124). -/
def plainOpcodes : List (BitVec 8) :=
  [0x00#8, 0x01#8, 0x02#8, 0x10#8, 0x11#8, 0x20#8, 0x21#8, 0x24#8, 0x30#8, 0x33#8, 0x3F#8]

/-- The opcodes of the commands that take a block length (R124). -/
def lengthOpcodes : List (BitVec 8) := [0x12#8, 0x22#8, 0x23#8, 0x31#8, 0x32#8]

/-- The condition of each error of R300 for the word `w` in the state `s`, each read on its own (R301 to R307); the
reserved code and NONE have none (R309). -/
def errorApplies (w : Word) (s : State) (e : ErrCode) : Prop :=
  match e with
  | .none => False
  | .illegalCommand =>
    w.extractLsb' 13 19 ≠ 0#19 ∨ w.extractLsb' 0 8 ∉ plainOpcodes ++ lengthOpcodes ∨
      (w.extractLsb' 0 8 ∈ plainOpcodes ∧ w.extractLsb' 8 5 ≠ 0#5)
  | .badBlockLength =>
    w.extractLsb' 0 8 ∈ lengthOpcodes ∧ (w.extractLsb' 8 5 = 0#5 ∨ 16 < (w.extractLsb' 8 5).toNat)
  | .sequence => ∃ i : Instr, i.opcode = w.extractLsb' 0 8 ∧ ¬ seqLegal i s
  | .invalidKeyLength =>
    w.extractLsb' 0 8 ∈ [0x12#8, 0x20#8, 0x30#8] ∧
      s.ctrl.keyLen ≠ 16#6 ∧ s.ctrl.keyLen ≠ 24#6 ∧ s.ctrl.keyLen ≠ 32#6
  | .unsupportedNonceLength => w.extractLsb' 0 8 ∈ [0x10#8, 0x30#8] ∧ s.ctrl.nonceLen ≠ 12#5
  | .messageTooLong => w.extractLsb' 0 8 = 0x32#8 ∧ s.blkcnt.toNat = 2 ^ 32 - 2
  | .lengthOverflow =>
    (w.extractLsb' 0 8 ∈ [0x22#8, 0x31#8] ∧ 2 ^ 64 ≤ s.lenA.toNat + 8 * (w.extractLsb' 8 5).toNat) ∨
      (w.extractLsb' 0 8 = 0x23#8 ∧ 2 ^ 64 ≤ s.lenC.toNat + 8 * (w.extractLsb' 8 5).toNat)
  | .authenticationFailure => False

/-- The requests a command makes at the cipher port when it completes without error (R322). -/
def cipherCalls (i : Instr) (s : State) : List CipherRequest :=
  match i with
  | .ksXor _ => [{ key := keyBytes s, block := s.ctr }]
  | .hDerive => [{ key := keyBytes s, block := 0#128 }]
  | .sealInit => if s.ctrl.keepH then [] else [{ key := keyBytes s, block := 0#128 }]
  | .sealPt _ => [{ key := keyBytes s, block := s.ctr }]
  | .sealFinal => [{ key := keyBytes s, block := s.j0 }]
  | .nop => []
  | .gfAdd => []
  | .gfMul => []
  | .ctrInit => []
  | .ctrInc => []
  | .ghashInit => []
  | .ghashAad _ => []
  | .ghashText _ => []
  | .ghashFinal => []
  | .sealAad _ => []
  | .clear => []

end Sys2Proof.Machine
end

