-- ==== Sys2Proof/Certificates/Slice0/Obligations.lean ====
section
/-!
DEFINITION. The statements for the provers. Each names the rule of spec/ it formalises; a statement that rests on a
choice of the model says so and names its log entry.
-/

open Sys2Proof Sys2Proof.Machine

/-! ## Encoding -/

/-- Decoding the word of a well-formed command gives that command, with every block length the encoding admits
(R127, R130). -/
def Obligations.DecodeOfEncode : Prop :=
  ∀ i : Instr, i.wellFormed = true → decode (encode i) = .command i

/-- Every word that names a command, with a legal block length or not, is that command's word, and it decodes as a
command exactly when the length is legal (R127; log entry 12 for the second result of decoding). -/
def Obligations.EncodeOfDecode : Prop :=
  ∀ (w : Word) (i : Instr), (decode w).instr? = some i →
    encode i = w ∧ (decode w = .command i ↔ i.wellFormed = true) ∧ (decode w = .badLen i ↔ i.wellFormed = false)

/-- R301: a word completes with ILLEGAL_COMMAND exactly when RSV is not 0, or the opcode is not in the table, or N is
not 0 on a command without a length. -/
def Obligations.IllegalCommandExactly : Prop :=
  ∀ (w : Word) (s : State), ∃ t, runWord w s = .next t ∧
    (t.errCode = .illegalCommand ↔
      (w.extractLsb' 13 19 ≠ 0#19 ∨
        w.extractLsb' 0 8 ∉ [0x00#8, 0x01#8, 0x02#8, 0x10#8, 0x11#8, 0x12#8, 0x20#8, 0x21#8, 0x22#8, 0x23#8, 0x24#8,
          0x30#8, 0x31#8, 0x32#8, 0x33#8, 0x3F#8] ∨
        (w.extractLsb' 0 8 ∈ [0x00#8, 0x01#8, 0x02#8, 0x10#8, 0x11#8, 0x20#8, 0x21#8, 0x24#8, 0x30#8, 0x33#8, 0x3F#8] ∧
          w.extractLsb' 8 5 ≠ 0#5)))

/-- R302: a length-taking command (of a word with RSV = 0, R310) completes with BAD_BLOCK_LENGTH exactly when N is 0
or above 16. -/
def Obligations.BadBlockLengthExactly : Prop :=
  ∀ (w : Word) (s : State), ∃ t, runWord w s = .next t ∧
    (t.errCode = .badBlockLength ↔
      (w.extractLsb' 13 19 = 0#19 ∧ w.extractLsb' 0 8 ∈ [0x12#8, 0x22#8, 0x23#8, 0x31#8, 0x32#8] ∧
        (w.extractLsb' 8 5 = 0#5 ∨ 16 < (w.extractLsb' 8 5).toNat)))

/-- Words written out from R130 and 95_test_vectors.md 2.7 decode to the commands they stand for, and the example
commands of R130 have those words. -/
def Obligations.SampleWordsDecode : Prop :=
  decode 0x00000002#32 = .command .gfMul ∧ decode 0x00000412#32 = .command (.ksXor 4#5) ∧
  decode 0x00000011#32 = .command .ctrInc ∧ decode 0x00001022#32 = .command (.ghashAad 16#5) ∧
  decode 0x00001031#32 = .command (.sealAad 16#5) ∧ decode 0x00000C32#32 = .command (.sealPt 12#5) ∧
  decode 0x00000033#32 = .command .sealFinal ∧ decode 0x0000003F#32 = .command .clear ∧
  decode 0x00001F31#32 = .badLen (.sealAad 31#5) ∧ decode 0x80000032#32 = .illegal .reservedBits ∧
  decode 0x00000130#32 = .illegal .lengthNotTaken ∧ decode 0x00000040#32 = .illegal .unknownOpcode ∧
  encode (.sealPt 12#5) = 0x00000C32#32 ∧ encode .clear = 0x0000003F#32

/-! ## The step and the command cycle -/

/-- When the word in flight names a command, the step that takes its completion is exec of that command: at the head of
the agenda, which is then advanced, or when the agenda is exhausted (R155; the agenda is the model's, log entry 1). -/
def Obligations.StepRunsCommandInFlight : Prop :=
  ∀ (s : State) (w : Word) (i : Instr), s.inFlight = some w → (decode w).instr? = some i →
    (∀ rest, s.agenda = .complete :: rest → step s = exec i { s with agenda := rest }) ∧
    (s.agenda = [] → step s = exec i s)

/-- A host access, a reset, and a completion that is not enabled, as the step performs them (R86, R87, R155, R350; the
agenda and busLog are the model's, log entries 1, 6, 13 and 14). -/
def Obligations.StepPerformsHostEvents : Prop :=
  ∀ (s : State) (rest : List Event),
    (∀ acc, s.agenda = .read acc :: rest →
      step s = .next { s with agenda := rest, busLog := busRead acc s :: s.busLog }) ∧
    (∀ acc d, s.agenda = .write acc d :: rest →
      step s = .next { busWrite acc d s with agenda := rest, busLog := busWriteReply acc :: s.busLog }) ∧
    (s.agenda = .reset :: rest →
      step s = .next { State.reset with agenda := rest, busLog := s.busLog, portLog := s.portLog }) ∧
    (s.inFlight = none → s.agenda = .complete :: rest → step s = .next { s with agenda := rest }) ∧
    (s.inFlight = none → s.agenda = [] → step s = .next s)

/-- R152: a BusWrite to CMD with BUSY = 0 accepts every word, legal or not, and changes nothing else; with BUSY = 1 it
is not accepted. An illegal word then completes with an error. -/
def Obligations.CommandAcceptance : Prop :=
  ∀ (w : Word) (s : State),
    (s.inFlight = none →
      busWrite WinReg.cmd.access w s =
        { s with cmd := w, inFlight := some w, done := false, err := false, errCode := .none } ∧
      ((∃ why, decode w = .illegal why) → ∃ t, completion (busWrite WinReg.cmd.access w s) = .next t ∧ t.err = true)) ∧
    (s.inFlight ≠ none → busWrite WinReg.cmd.access w s = { s with werr := true })

/-- Every step answers a next state, since no command, no word and no access stops the machine, and every accepted word
completes in one step, with BUSY <- 0 and DONE <- 1, whatever the word; with the agenda exhausted that step comes next
(R152, R155, R312; the agenda is log entry 1, the absence of faults log entry 25). -/
def Obligations.AcceptedWordCompletes : Prop :=
  (∀ s : State, ∃ t, step s = .next t) ∧
  ∀ (s : State) (w : Word), s.inFlight = some w →
    (∃ t, completion s = .next t ∧ t.inFlight = none ∧ t.done = true) ∧
    (s.agenda = [] → ∃ t, step s = .next t ∧ t.inFlight = none ∧ t.done = true)

/-- Between acceptance and completion a host access changes nothing but DONE, CTR_WRAP and WERR, clearing the first two
only through STATUS; every write to another mapped word is ignored, returns OKAY and sets WERR, so the command in flight
is neither replaced nor dropped (R92, R153). That this holds for read-only words too is R87's order (log entry 8), and
the data 0 in a write's reply is the model's (log entry 19). -/
def Obligations.InFlightFreezesRegisters : Prop :=
  ∀ (s : State) (acc : Access) (d : Word), s.inFlight ≠ none →
    (∃ dn cw we, busWrite acc d s = { s with done := dn, ctrWrap := cw, werr := we } ∧
      (dn = true → s.done = true) ∧ (cw = true → s.ctrWrap = true)) ∧
    (target acc ≠ some .status → (busWrite acc d s).done = s.done ∧ (busWrite acc d s).ctrWrap = s.ctrWrap) ∧
    ∀ r : WinReg, r ≠ .status →
      busWrite r.access d s = { s with werr := true } ∧ busWriteReply r.access = { data := 0#32, resp := .okay }

/-- R157, R160, R311 and R159: a command, legal or not, that raises an error writes nothing but STATUS, and ABORTs the
seal exactly when it was accepted in a seal phase. -/
def Obligations.FailedCommandWritesOnlyStatus : Prop :=
  ∀ (w : Word) (s t : State), runWord w s = .next t → t.err = true →
    t.errCode ≠ .none ∧
    (s.seq ≠ .slAad → s.seq ≠ .slText →
      t = { s with inFlight := none, done := true, err := true, errCode := t.errCode }) ∧
    (s.seq = .slAad ∨ s.seq = .slText →
      t = { s with
        inFlight := none, done := true, err := true, errCode := t.errCode
        seq := .idle, partialBlk := false
        x := 0#128, tag := 0#128, dout := 0#128, j0 := 0#128, ctr := 0#128
        lenA := 0#64, lenC := 0#64, blkcnt := 0#32
        h := if s.ctrl.keepH then s.h else 0#128 })

/-- R310 with R301 to R307: a word completes with the first error, in the order of the codes 1 to 7, whose condition
holds, and without error when none does; WERR is another flag and stays as it stands. -/
def Obligations.FirstErrorIsReported : Prop :=
  ∀ (w : Word) (s t : State), runWord w s = .next t →
    (t.err = true ↔ ∃ e, errorApplies w s e) ∧
    (∀ e, errorApplies w s e → (∀ e', e'.code.toNat < e.code.toNat → ¬ errorApplies w s e') → t.errCode = e) ∧
    ((∀ e, ¬ errorApplies w s e) → t.errCode = .none) ∧
    t.werr = s.werr

/-- R309: no command, legal or not, completes with a code of 8 or above. -/
def Obligations.ReservedCodesNeverRaised : Prop :=
  ∀ (w : Word) (s t : State), runWord w s = .next t →
    ((readReg .status t).extractLsb' 4 4).toNat < 8 ∧ t.errCode ≠ .authenticationFailure

/-- R162: a well-formed command whose SEQ and PARTIAL condition fails completes with SEQUENCE, and one that completes
without error leaves SEQ and PARTIAL as the table says. -/
def Obligations.SequencingTable : Prop :=
  ∀ (i : Instr) (s : State), i.wellFormed = true → ∃ t, exec i s = .next t ∧
    (¬ seqLegal i s ↔ t.errCode = .sequence) ∧
    (t.err = false → seqLegal i s ∧ (t.seq, t.partialBlk) = seqAfter i s)

/-- The error code of a word depends only on the word, CTRL, SEQ, PARTIAL, BLKCNT and the LEN registers, never on KEY,
H, X, TAG or data (R318, its sentence on ERR_CODE). -/
def Obligations.ErrorCodeRevealsNoSecret : Prop :=
  ∀ (w : Word) (s t s' t' : State), s.samePublic t → runWord w s = .next s' → runWord w t = .next t' →
    s'.err = t'.err ∧ s'.errCode = t'.errCode

/-- R322: the requests each command makes at the cipher port; a failed command makes none (portLog is the model's
record of the port, log entry 7). -/
def Obligations.CipherCallsPerCommand : Prop :=
  ∀ (i : Instr) (s t : State), exec i s = .next t →
    t.portLog = (if t.err then [] else cipherCalls i s) ++ s.portLog ∧
    (t.err = false → (cipherCalls i s).length =
      match i with
      | .ksXor _ => 1
      | .hDerive => 1
      | .sealPt _ => 1
      | .sealFinal => 1
      | .sealInit => if s.ctrl.keepH then 0 else 1
      | _ => 0)

/-! ## The register window -/

/-- The register map of R84: each word stands at its offset, no other offset holds one, and two words never share
one. -/
def Obligations.RegisterMapIsOneToOne : Prop :=
  (∀ (off : Offset) (r : WinReg), regAt off = some r ↔ off = r.offset) ∧
  (regAt 0x000#12 = some .id ∧ regAt 0x004#12 = some .ctrl ∧ regAt 0x008#12 = some .status ∧
    regAt 0x00C#12 = some .cmd ∧ regAt 0x010#12 = some .blkcnt ∧ regAt 0x014#12 = some .lenAHi ∧
    regAt 0x018#12 = some .lenALo ∧ regAt 0x01C#12 = some .lenCHi ∧ regAt 0x020#12 = some .lenCLo) ∧
  (∀ k : Fin 8, regAt (0x040#12 + BitVec.ofNat 12 (4 * k.val)) = some (.key k)) ∧
  (∀ k : Fin 3, regAt (0x060#12 + BitVec.ofNat 12 (4 * k.val)) = some (.nonce k)) ∧
  (∀ k : Fin 4,
    regAt (0x070#12 + BitVec.ofNat 12 (4 * k.val)) = some (.block .din k) ∧
    regAt (0x080#12 + BitVec.ofNat 12 (4 * k.val)) = some (.block .dout k) ∧
    regAt (0x090#12 + BitVec.ofNat 12 (4 * k.val)) = some (.block .ctr k) ∧
    regAt (0x0A0#12 + BitVec.ofNat 12 (4 * k.val)) = some (.block .j0 k) ∧
    regAt (0x0B0#12 + BitVec.ofNat 12 (4 * k.val)) = some (.block .h k) ∧
    regAt (0x0C0#12 + BitVec.ofNat 12 (4 * k.val)) = some (.block .x k) ∧
    regAt (0x0D0#12 + BitVec.ofNat 12 (4 * k.val)) = some (.block .tag k) ∧
    regAt (0x0E0#12 + BitVec.ofNat 12 (4 * k.val)) = some (.block .a k) ∧
    regAt (0x0F0#12 + BitVec.ofNat 12 (4 * k.val)) = some (.block .b k) ∧
    regAt (0x100#12 + BitVec.ofNat 12 (4 * k.val)) = some (.block .z k)) ∧
  ∀ off : Offset, regAt off = none ↔ off.toNat % 4 ≠ 0 ∨ (0x024 ≤ off.toNat ∧ off.toNat ≤ 0x03C) ∨
    off.toNat = 0x06C ∨ 0x110 ≤ off.toNat

/-- R88, R91, R314: an access of another width, with a partial strobe, with a misaligned or with an unmapped offset
returns SLVERR and data 0 and changes no core state. -/
def Obligations.RefusedAccessChangesNothing : Prop :=
  ∀ (acc : Access) (d : Word) (s : State),
    (acc.width ≠ 32 ∨ acc.lanes ≠ 0xF#4 ∨ acc.offset.toNat % 4 ≠ 0 ∨
      (0x024 ≤ acc.offset.toNat ∧ acc.offset.toNat ≤ 0x03C) ∨ acc.offset.toNat = 0x06C ∨ 0x110 ≤ acc.offset.toNat) →
    busRead acc s = { data := 0#32, resp := .slverr } ∧
    busWriteReply acc = { data := 0#32, resp := .slverr } ∧
    busWrite acc d s = s

/-- R38: the fields of STATUS stand at their bits, reserved bits read 0, and a write clears each W1C bit whose data bit
is 1 and changes nothing else, also while BUSY = 1; STATUS resets to 0. SEQ and ERR_CODE show the numbers of R44 and
R300, written out. -/
def Obligations.StatusLayoutAndClear : Prop :=
  (∀ s : State,
    (readReg .status s).getLsbD 0 = s.inFlight.isSome ∧ (readReg .status s).getLsbD 1 = s.done ∧
    (readReg .status s).getLsbD 2 = s.err ∧ (readReg .status s).getLsbD 3 = false ∧
    (readReg .status s).extractLsb' 4 4 =
      (match s.errCode with
       | .none => 0#4
       | .illegalCommand => 1#4
       | .badBlockLength => 2#4
       | .sequence => 3#4
       | .invalidKeyLength => 4#4
       | .unsupportedNonceLength => 5#4
       | .messageTooLong => 6#4
       | .lengthOverflow => 7#4
       | .authenticationFailure => 8#4) ∧
    (readReg .status s).getLsbD 8 = s.ctrWrap ∧ (readReg .status s).getLsbD 9 = s.werr ∧
    (readReg .status s).extractLsb' 10 3 =
      (match s.seq with
       | .idle => 0#3
       | .ghAad => 1#3
       | .ghText => 2#3
       | .slAad => 3#3
       | .slText => 4#3) ∧
    (readReg .status s).getLsbD 13 = s.partialBlk ∧ (readReg .status s).extractLsb' 14 18 = 0#18) ∧
  (∀ (d : Word) (s : State), busWrite WinReg.status.access d s =
    { s with
      done := if d.getLsbD 1 then false else s.done
      ctrWrap := if d.getLsbD 8 then false else s.ctrWrap
      werr := if d.getLsbD 9 then false else s.werr }) ∧
  readReg .status State.reset = 0#32

/-- The fields of CTRL stand at their bits, reserved bits read 0, a write replaces all fields at once with any value,
and a write in a seal flow or while BUSY = 1 is ignored; CTRL resets to 0 (R34, R92, R93). -/
def Obligations.ControlLayoutAndWrite : Prop :=
  (∀ s : State,
    (readReg .ctrl s).extractLsb' 0 6 = s.ctrl.keyLen ∧ (readReg .ctrl s).extractLsb' 6 2 = 0#2 ∧
    (readReg .ctrl s).extractLsb' 8 5 = s.ctrl.nonceLen ∧ (readReg .ctrl s).extractLsb' 13 3 = 0#3 ∧
    (readReg .ctrl s).getLsbD 16 = s.ctrl.keepH ∧ (readReg .ctrl s).getLsbD 17 = s.ctrl.irqEn ∧
    (readReg .ctrl s).extractLsb' 18 14 = 0#14) ∧
  (∀ (d : Word) (s : State), s.inFlight = none → s.seq ≠ .slAad → s.seq ≠ .slText →
    readReg .ctrl (busWrite WinReg.ctrl.access d s) = d &&& 0x00031F3F#32) ∧
  (∀ (d : Word) (s : State), s.inFlight ≠ none ∨ s.seq = .slAad ∨ s.seq = .slText →
    busWrite WinReg.ctrl.access d s = { s with werr := true }) ∧
  readReg .ctrl State.reset = 0#32

/-- R85: word k of a wide register is its bytes 4k..4k+3, byte 4k in bits [31:24], for each register by its own field;
KEY by what a BusWrite puts there, with BUSY = 0 outside a seal. Beside it, what a BusRead of a mapped word returns
(R86), with ID, CMD and BLKCNT read whole (R31, R56, R57). -/
def Obligations.WideRegisterWords : Prop :=
  (∀ (r : WinReg) (s : State), busRead r.access s = { data := readReg r s, resp := .okay }) ∧
  (∀ s : State, readReg .id s = 0x47434D01#32 ∧ readReg .cmd s = s.cmd ∧ readReg .blkcnt s = s.blkcnt) ∧
  (∀ (k : Fin 4) (s : State),
    readReg (.block .din k) s = s.din.extractLsb' (96 - 32 * k.val) 32 ∧
    readReg (.block .dout k) s = s.dout.extractLsb' (96 - 32 * k.val) 32 ∧
    readReg (.block .ctr k) s = s.ctr.extractLsb' (96 - 32 * k.val) 32 ∧
    readReg (.block .j0 k) s = s.j0.extractLsb' (96 - 32 * k.val) 32 ∧
    readReg (.block .h k) s = s.h.extractLsb' (96 - 32 * k.val) 32 ∧
    readReg (.block .x k) s = s.x.extractLsb' (96 - 32 * k.val) 32 ∧
    readReg (.block .tag k) s = s.tag.extractLsb' (96 - 32 * k.val) 32 ∧
    readReg (.block .a k) s = s.a.extractLsb' (96 - 32 * k.val) 32 ∧
    readReg (.block .b k) s = s.b.extractLsb' (96 - 32 * k.val) 32 ∧
    readReg (.block .z k) s = s.z.extractLsb' (96 - 32 * k.val) 32) ∧
  (∀ (k : Fin 3) (s : State), readReg (.nonce k) s = s.nonce.extractLsb' (64 - 32 * k.val) 32) ∧
  (∀ s : State, readReg .lenAHi s = s.lenA.extractLsb' 32 32 ∧ readReg .lenALo s = s.lenA.extractLsb' 0 32 ∧
    readReg .lenCHi s = s.lenC.extractLsb' 32 32 ∧ readReg .lenCLo s = s.lenC.extractLsb' 0 32) ∧
  ∀ (k : Fin 8) (d : Word) (s t : State), s.inFlight = none → s.seq ≠ .slAad → s.seq ≠ .slText →
    t = busWrite (WinReg.key k).access d s →
    t = { s with key := t.key } ∧
    ∀ i : Fin 32, t.key.extractLsb' (248 - 8 * i.val) 8 =
      if i.val / 4 = k.val then d.extractLsb' (24 - 8 * (i.val % 4)) 8 else s.key.extractLsb' (248 - 8 * i.val) 8

/-- A word written with BUSY = 0, not read-only and not locked, reads back (KEY reads 0, R90, and CTRL without its
reserved bits), no other word of the window reads differently, and what the window does not show, KEY unless the word
is one of its own and the command in flight, is kept (R87 part (6), R95; also the model's agenda, busLog and portLog,
log entries 1, 6 and 7). -/
def Obligations.WriteThenRead : Prop :=
  ∀ (r : WinReg) (d : Word) (s : State), s.inFlight = none → r ≠ .status → r ≠ .cmd → r.readOnly = false →
    locked r s = false →
    readReg r (busWrite r.access d s) =
      (match r with
       | .ctrl => d &&& 0x00031F3F#32
       | .key _ => 0#32
       | _ => d) ∧
    (∀ r', r' ≠ r → readReg r' (busWrite r.access d s) = readReg r' s) ∧
    ((∀ k, r ≠ .key k) → (busWrite r.access d s).key = s.key) ∧
    (busWrite r.access d s).inFlight = s.inFlight ∧ (busWrite r.access d s).agenda = s.agenda ∧
    (busWrite r.access d s).busLog = s.busLog ∧ (busWrite r.access d s).portLog = s.portLog

/-- R93: with BUSY = 0, a write to CTRL, KEY, NONCE, CTR or H in a seal flow, and to H in a GHASH-only flow, is ignored,
returns OKAY and sets WERR; DIN, A and B are written in every flow. -/
def Obligations.FlowLocks : Prop :=
  ∀ (d : Word) (s : State), s.inFlight = none →
    (s.seq = .slAad ∨ s.seq = .slText → ∀ r : WinReg,
      (r = .ctrl ∨ (∃ k, r = .key k) ∨ (∃ k, r = .nonce k) ∨ (∃ k, r = .block .ctr k) ∨ (∃ k, r = .block .h k)) →
      busWrite r.access d s = { s with werr := true } ∧ (busWriteReply r.access).resp = .okay) ∧
    (s.seq = .ghAad ∨ s.seq = .ghText → ∀ k,
      busWrite (WinReg.block .h k).access d s = { s with werr := true } ∧
        (busWriteReply (WinReg.block .h k).access).resp = .okay) ∧
    (∀ k : Fin 4,
      busWrite (WinReg.block .din k).access d s = { s with din := setWordAt s.din k.val d } ∧
      busWrite (WinReg.block .a k).access d s = { s with a := setWordAt s.a k.val d } ∧
      busWrite (WinReg.block .b k).access d s = { s with b := setWordAt s.b k.val d })

/-- With BUSY = 0 a write to a read-only word returns OKAY and changes nothing, not even WERR; and no host write of any
form, in any state, changes a read-only register, SEQ or PARTIAL (R33, R89; while BUSY = 1 the model follows R87's order,
log entry 8; the data 0 in a write's reply is log entry 19). -/
def Obligations.ReadOnlyWritesIgnored : Prop :=
  (∀ (r : WinReg) (d : Word) (s : State), s.inFlight = none →
    (r = .id ∨ r = .blkcnt ∨ r = .lenAHi ∨ r = .lenALo ∨ r = .lenCHi ∨ r = .lenCLo ∨
      ∃ k, r = .block .dout k ∨ r = .block .j0 k ∨ r = .block .x k ∨ r = .block .tag k ∨ r = .block .z k) →
    busWrite r.access d s = s ∧ busWriteReply r.access = { data := 0#32, resp := .okay }) ∧
  ∀ (acc : Access) (d : Word) (s : State),
    (busWrite acc d s).seq = s.seq ∧ (busWrite acc d s).partialBlk = s.partialBlk ∧
    (busWrite acc d s).blkcnt = s.blkcnt ∧ (busWrite acc d s).lenA = s.lenA ∧ (busWrite acc d s).lenC = s.lenC ∧
    (busWrite acc d s).dout = s.dout ∧ (busWrite acc d s).j0 = s.j0 ∧ (busWrite acc d s).x = s.x ∧
    (busWrite acc d s).tag = s.tag ∧ (busWrite acc d s).z = s.z ∧ (busWrite acc d s).portLog = s.portLog

/-- R90: reading a KEY word returns OKAY and 0, and no access at all reads anything of the key. -/
def Obligations.KeyNeverReadable : Prop :=
  (∀ (k : Fin 8) (s : State), busRead (WinReg.key k).access s = { data := 0#32, resp := .okay }) ∧
  ∀ (acc : Access) (s : State) (k : BitVec 256), busRead acc { s with key := k } = busRead acc s

/-- R133, R134: `WR128 V, v` on a writable register that is not locked, with BUSY = 0, loads the whole value, which
`RD128 V` then reads back; no other register changes. -/
def Obligations.Load128RoundTrip : Prop :=
  ∀ (r : BlockReg) (v : Block) (s : State), s.inFlight = none → r = .din ∨ r = .a ∨ r = .b ∨
      (r = .ctr ∧ s.seq.isSeal = false) ∨ (r = .h ∧ s.seq = .idle) →
    load128 r v s = putBlock r v s ∧ rd128Value r (load128 r v s) = v

/-- R351: the reset values, every register and field of the spec's table. -/
def Obligations.ResetValues : Prop :=
  readReg .id State.reset = 0x47434D01#32 ∧ readReg .ctrl State.reset = 0#32 ∧ readReg .status State.reset = 0#32 ∧
  readReg .cmd State.reset = 0#32 ∧ readReg .blkcnt State.reset = 0#32 ∧ State.reset.lenA = 0#64 ∧
  State.reset.lenC = 0#64 ∧ State.reset.key = 0#256 ∧ State.reset.nonce = 0#96 ∧
  (∀ r : BlockReg, readBlock r State.reset = 0#128) ∧ irq State.reset = false ∧ State.reset.inFlight = none ∧
  State.reset.ctrl = { keyLen := 0#6, nonceLen := 0#5, keepH := false, irqEn := false } ∧
  State.reset.seq = .idle ∧ State.reset.errCode = .none

/-- A reset at any point, also with a command in flight, gives every register its reset value and discards the command:
a completion afterwards does nothing, DONE stays 0 and no interrupt is raised (R350, R352). The agenda and its keeping are
the model's choice (log entries 1 and 13), and so is that portLog stands as it was: it records a request only at the
completion of its command, and says nothing of a request made in hardware before the reset (log entry 7). -/
def Obligations.ResetDiscardsCommand : Prop :=
  ∀ (s : State) (rest : List Event), s.agenda = .reset :: .complete :: rest →
    ∃ t u, step s = .next t ∧ step t = .next u ∧
      (∀ r : WinReg, readReg r u = readReg r State.reset) ∧ u.key = 0#256 ∧ u.inFlight = none ∧ u.done = false ∧
      irq u = false ∧ u.portLog = s.portLog ∧ u.agenda = rest

/-- irq is CTRL.IRQ_EN AND STATUS.DONE; it rises at every completion with IRQ_EN = 1, falls at acceptance, at a W1C
write of DONE and at a write of IRQ_EN = 0 outside a seal flow, and is 0 after reset (R315). -/
def Obligations.InterruptLevel : Prop :=
  (∀ s : State, irq s = true ↔ s.ctrl.irqEn = true ∧ s.done = true) ∧
  (∀ (w : Word) (s t : State), runWord w s = .next t → irq t = s.ctrl.irqEn) ∧
  (∀ (d : Word) (s : State), s.inFlight = none → irq (busWrite WinReg.cmd.access d s) = false) ∧
  (∀ (d : Word) (s : State), d.getLsbD 1 = true → irq (busWrite WinReg.status.access d s) = false) ∧
  (∀ (d : Word) (s : State), s.inFlight = none → s.seq ≠ .slAad → s.seq ≠ .slText → d.getLsbD 17 = false →
    irq (busWrite WinReg.ctrl.access d s) = false) ∧
  irq State.reset = false

/-! ## Values the commands compute -/

/-- R180 and R181: addition is the bitwise XOR; it is commutative, associative, self-inverse, with identity zero. -/
def Obligations.AdditionLaws : Prop :=
  (∀ (a b : Block) (i : Nat), (gfAdd a b).getLsbD i = (a.getLsbD i ^^ b.getLsbD i)) ∧
  (∀ a b : Block, gfAdd a b = gfAdd b a) ∧ (∀ a b c : Block, gfAdd (gfAdd a b) c = gfAdd a (gfAdd b c)) ∧
  (∀ a : Block, gfAdd a a = 0#128) ∧ ∀ a : Block, gfAdd a 0#128 = a ∧ gfAdd 0#128 a = a

/-- R184: multiply(0, x) = 0 and multiply(one, x) = x, and the same with the operands exchanged. -/
def Obligations.MultiplicationEdges : Prop :=
  ∀ x : Block,
    gfMul 0#128 x = 0#128 ∧ gfMul 0x80000000000000000000000000000000#128 x = x ∧
    gfMul x 0#128 = 0#128 ∧ gfMul x 0x80000000000000000000000000000000#128 = x

/-- gfMul(a, b) is the product of the polynomials a(x) and b(x) over GF(2) reduced modulo x^128 + x^7 + x^2 + x + 1, where
bit 127 - i of a Block is the coefficient of x^i (R183 with R13). -/
def Obligations.MultiplicationIsPolynomialProduct : Prop :=
  ∀ (P : Block → Polynomial (ZMod 2)),
    (∀ v, P v = ∑ i ∈ Finset.range 128, if v.getLsbD (127 - i) then Polynomial.X ^ i else 0) →
    ∀ a b : Block, ∃ q : Polynomial (ZMod 2),
      P a * P b = P (gfMul a b) + q *
        (Polynomial.X ^ 128 + Polynomial.X ^ 7 + Polynomial.X ^ 2 + Polynomial.X + 1)

/-- gfMul is commutative although the algorithm scans one argument and shifts the other, it is associative, and it
distributes over gfAdd on both sides (R183). -/
def Obligations.MultiplicationLaws : Prop :=
  (∀ a b : Block, gfMul a b = gfMul b a) ∧
  (∀ a b c : Block, gfMul (gfMul a b) c = gfMul a (gfMul b c)) ∧
  (∀ a b c : Block, gfMul a (gfAdd b c) = gfAdd (gfMul a b) (gfMul a c)) ∧
  ∀ a b c : Block, gfMul (gfAdd a b) c = gfAdd (gfMul a c) (gfMul b c)

/-- R200: inc32 adds 1 to the last 4 bytes modulo 2^32 and reports the wrap; no carry reaches the first 12. -/
def Obligations.CounterIncrement : Prop :=
  ∀ v : Block,
    ((inc32 v).1.extractLsb' 0 32).toNat = ((v.extractLsb' 0 32).toNat + 1) % 2 ^ 32 ∧
    (inc32 v).1.extractLsb' 32 96 = v.extractLsb' 32 96 ∧
    ((inc32 v).2 = true ↔ (v.extractLsb' 0 32).toNat = 0xFFFFFFFF)

/-- R202: mask(v, n) keeps bytes 0..n-1 of v and makes bytes n..15 zero, by the formula of the rule; mask(v, 16) = v; and
the bytes past n that KS_XOR n and SEAL_PT n leave in DOUT are zero. -/
def Obligations.MaskKeepsLeadingBytes : Prop :=
  (∀ (v : Block) (n i : Nat), 1 ≤ n → n ≤ 16 → i < 16 →
    blockByte (mask v n) i = if i < n then blockByte v i else 0#8) ∧
  (∀ (v : Block) (n : Nat), mask v n = v &&& (BitVec.ofNat 128 (2 ^ (8 * n) - 1) <<< (128 - 8 * n))) ∧
  (∀ v : Block, mask v 16 = v) ∧
  ∀ (n : BitVec 5) (s t : State) (i : Nat), (exec (.ksXor n) s = .next t ∨ exec (.sealPt n) s = .next t) →
    t.err = false → n.toNat ≤ i → i < 16 → blockByte t.dout i = 0#8

/-- keyBytes() is key bytes 0..KEY_LEN-1 in order for each legal key length, and the other KEY words do not matter
(R45, its sentences on keyBytes). -/
def Obligations.KeyBytesAreLeading : Prop :=
  ∀ s : State, s.ctrl.keyLen = 16#6 ∨ s.ctrl.keyLen = 24#6 ∨ s.ctrl.keyLen = 32#6 →
    (keyBytes s).length = s.ctrl.keyLen.toNat ∧
    (∀ i, i < s.ctrl.keyLen.toNat → (keyBytes s)[i]? = some (s.key.extractLsb' (248 - 8 * i) 8)) ∧
    ∀ k : BitVec 256, k >>> (256 - 8 * s.ctrl.keyLen.toNat) = s.key >>> (256 - 8 * s.ctrl.keyLen.toNat) →
      keyBytes { s with key := k } = keyBytes s

/-! ## The commands: results and frames. Each names the whole next state, so every register it does not name is kept. -/

/-- NOP and CLEAR complete in every state: NOP changes only STATUS, CLEAR zeroes the flow and result registers and
leaves IDLE, H zeroed whatever KEEP_H holds (R170, R171). -/
def Obligations.HousekeepingResults : Prop :=
  ∀ s : State,
    exec .nop s = .next { s with inFlight := none, done := true, err := false, errCode := .none } ∧
    exec .clear s = .next { s with
      inFlight := none, done := true, err := false, errCode := .none
      x := 0#128, h := 0#128, tag := 0#128, dout := 0#128, j0 := 0#128, ctr := 0#128, z := 0#128
      lenA := 0#64, lenC := 0#64, blkcnt := 0#32, seq := .idle, partialBlk := false }

/-- GF_ADD and GF_MUL complete in every state and write Z alone (R185, R186). -/
def Obligations.FieldCommandResults : Prop :=
  ∀ s : State,
    exec .gfAdd s = .next { s with
      inFlight := none, done := true, err := false, errCode := .none, z := s.a ^^^ s.b } ∧
    exec .gfMul s = .next { s with
      inFlight := none, done := true, err := false, errCode := .none, z := gfMul s.a s.b }

/-- CTR_INIT outside a seal with NONCE_LEN = 12, and CTR_INC outside a seal, complete and write CTR, and CTR_WRAP only
on a wrap (R205, R206). -/
def Obligations.CounterCommandResults : Prop :=
  ∀ s : State, s.seq ≠ .slAad → s.seq ≠ .slText →
    (s.ctrl.nonceLen = 12#5 → exec .ctrInit s = .next { s with
      inFlight := none, done := true, err := false, errCode := .none, ctr := s.nonce ++ 1#32 }) ∧
    exec .ctrInc s = .next { s with
      inFlight := none, done := true, err := false, errCode := .none
      ctr := s.ctr.extractLsb' 32 96 ++ (s.ctr.extractLsb' 0 32 + 1#32)
      ctrWrap := s.ctrWrap || decide (s.ctr.extractLsb' 0 32 = 0xFFFFFFFF#32) }

/-- KS_XOR n with 1 ≤ n ≤ 16, outside a seal and with a legal key length, completes and writes DOUT, CTR and CTR_WRAP
(R207; portLog is log entry 7). -/
def Obligations.KeystreamCommandResult : Prop :=
  ∀ (n : BitVec 5) (s : State), 1 ≤ n.toNat → n.toNat ≤ 16 → s.seq ≠ .slAad → s.seq ≠ .slText →
    (s.ctrl.keyLen = 16#6 ∨ s.ctrl.keyLen = 24#6 ∨ s.ctrl.keyLen = 32#6) →
    exec (.ksXor n) s = .next { s with
      inFlight := none, done := true, err := false, errCode := .none
      dout := mask (s.din ^^^ Config.blockCipher (keyBytes s) s.ctr) n.toNat
      ctr := s.ctr.extractLsb' 32 96 ++ (s.ctr.extractLsb' 0 32 + 1#32)
      ctrWrap := s.ctrWrap || decide (s.ctr.extractLsb' 0 32 = 0xFFFFFFFF#32)
      portLog := { key := keyBytes s, block := s.ctr } :: s.portLog }

/-- KS_XOR re-applied from the same counter to its own output gives back the first n bytes of the data, whatever the
cipher (R207, involution). -/
def Obligations.KeystreamInvolution : Prop :=
  ∀ (n : BitVec 5) (s t u : State), exec (.ksXor n) s = .next t → t.err = false →
    exec (.ksXor n) { t with ctr := s.ctr, din := t.dout } = .next u → u.dout = mask s.din n.toNat

/-- H_DERIVE in IDLE with a legal key length, and GHASH_INIT outside a seal, complete (R230, R231). -/
def Obligations.SubkeyAndGhashInitResults : Prop :=
  ∀ s : State,
    (s.seq = .idle → (s.ctrl.keyLen = 16#6 ∨ s.ctrl.keyLen = 24#6 ∨ s.ctrl.keyLen = 32#6) →
      exec .hDerive s = .next { s with
        inFlight := none, done := true, err := false, errCode := .none
        h := Config.blockCipher (keyBytes s) 0#128
        portLog := { key := keyBytes s, block := 0#128 } :: s.portLog }) ∧
    (s.seq ≠ .slAad → s.seq ≠ .slText →
      exec .ghashInit s = .next { s with
        inFlight := none, done := true, err := false, errCode := .none
        x := 0#128, lenA := 0#64, lenC := 0#64, seq := .ghAad, partialBlk := false })

/-- GHASH_AAD n and SEAL_AAD n in their associated-data phases, with no short block before and no length overflow,
complete and absorb the masked DIN (R232, R256). -/
def Obligations.AssociatedDataResults : Prop :=
  ∀ (n : BitVec 5) (s : State), 1 ≤ n.toNat → n.toNat ≤ 16 → s.partialBlk = false →
    s.lenA.toNat + 8 * n.toNat < 2 ^ 64 →
    (s.seq = .ghAad → exec (.ghashAad n) s = .next { s with
      inFlight := none, done := true, err := false, errCode := .none
      x := gfMul (s.x ^^^ mask s.din n.toNat) s.h
      lenA := BitVec.ofNat 64 (s.lenA.toNat + 8 * n.toNat)
      partialBlk := decide (n.toNat < 16) }) ∧
    (s.seq = .slAad → exec (.sealAad n) s = .next { s with
      inFlight := none, done := true, err := false, errCode := .none
      x := gfMul (s.x ^^^ mask s.din n.toNat) s.h
      lenA := BitVec.ofNat 64 (s.lenA.toNat + 8 * n.toNat)
      partialBlk := decide (n.toNat < 16) })

/-- GHASH_TEXT n in a GHASH-only flow completes, also as the first text block after a short associated-data block, and
GHASH_FINAL ends the flow with the length block (R233, R234). -/
def Obligations.GhashTextAndFinalResults : Prop :=
  ∀ s : State,
    (∀ n : BitVec 5, 1 ≤ n.toNat → n.toNat ≤ 16 → (s.seq = .ghAad ∨ s.seq = .ghText ∧ s.partialBlk = false) →
      s.lenC.toNat + 8 * n.toNat < 2 ^ 64 →
      exec (.ghashText n) s = .next { s with
        inFlight := none, done := true, err := false, errCode := .none
        x := gfMul (s.x ^^^ mask s.din n.toNat) s.h
        lenC := BitVec.ofNat 64 (s.lenC.toNat + 8 * n.toNat)
        seq := .ghText
        partialBlk := decide (n.toNat < 16) }) ∧
    (s.seq = .ghAad ∨ s.seq = .ghText →
      exec .ghashFinal s = .next { s with
        inFlight := none, done := true, err := false, errCode := .none
        x := gfMul (s.x ^^^ (s.lenA ++ s.lenC)) s.h
        seq := .idle
        partialBlk := false })

/-- SEAL_INIT outside a seal with legal key and nonce lengths completes: J0 = NONCE || 1, CTR = NONCE || 2, H derived
unless KEEP_H, the flow cleared (R255). -/
def Obligations.SealInitResult : Prop :=
  ∀ s : State, s.seq ≠ .slAad → s.seq ≠ .slText →
    (s.ctrl.keyLen = 16#6 ∨ s.ctrl.keyLen = 24#6 ∨ s.ctrl.keyLen = 32#6) → s.ctrl.nonceLen = 12#5 →
    exec .sealInit s = .next { s with
      inFlight := none, done := true, err := false, errCode := .none
      j0 := s.nonce ++ 1#32
      ctr := s.nonce ++ 2#32
      h := if s.ctrl.keepH then s.h else Config.blockCipher (keyBytes s) 0#128
      portLog := if s.ctrl.keepH then s.portLog else { key := keyBytes s, block := 0#128 } :: s.portLog
      x := 0#128, tag := 0#128, dout := 0#128, lenA := 0#64, lenC := 0#64, blkcnt := 0#32
      seq := .slAad, partialBlk := false }

/-- SEAL_PT n in a seal flow, with BLKCNT below the limit, completes: the ciphertext chunk in DOUT, the counters
advanced, the ciphertext absorbed (R257). -/
def Obligations.SealPlaintextResult : Prop :=
  ∀ (n : BitVec 5) (s : State) (c : Block), 1 ≤ n.toNat → n.toNat ≤ 16 →
    (s.seq = .slAad ∨ s.seq = .slText ∧ s.partialBlk = false) → s.blkcnt ≠ 0xFFFFFFFE#32 →
    c = mask (s.din ^^^ Config.blockCipher (keyBytes s) s.ctr) n.toNat →
    exec (.sealPt n) s = .next { s with
      inFlight := none, done := true, err := false, errCode := .none
      dout := c
      ctr := s.ctr.extractLsb' 32 96 ++ (s.ctr.extractLsb' 0 32 + 1#32)
      ctrWrap := s.ctrWrap || decide (s.ctr.extractLsb' 0 32 = 0xFFFFFFFF#32)
      blkcnt := s.blkcnt + 1#32
      x := gfMul (s.x ^^^ c) s.h
      lenC := s.lenC + BitVec.ofNat 64 (8 * n.toNat)
      seq := .slText
      partialBlk := decide (n.toNat < 16)
      portLog := { key := keyBytes s, block := s.ctr } :: s.portLog }

/-- SEAL_FINAL in a seal flow completes: X is the hash, TAG the hash under the encrypted J0, H dropped unless KEEP_H
(R258). -/
def Obligations.SealFinalResult : Prop :=
  ∀ (s : State) (g : Block), (s.seq = .slAad ∨ s.seq = .slText) → g = gfMul (s.x ^^^ (s.lenA ++ s.lenC)) s.h →
    exec .sealFinal s = .next { s with
      inFlight := none, done := true, err := false, errCode := .none
      x := g
      tag := Config.blockCipher (keyBytes s) s.j0 ^^^ g
      h := if s.ctrl.keepH then s.h else 0#128
      seq := .idle
      partialBlk := false
      portLog := { key := keyBytes s, block := s.j0 } :: s.portLog }

/-- With H = 0 every block command and FINAL that completes without error leaves X = 0 (R366 (a)). -/
def Obligations.ZeroSubkeyGivesZeroHash : Prop :=
  ∀ (i : Instr) (s t : State), s.h = 0#128 → exec i s = .next t → t.err = false →
    (match i with
     | .ghashAad _ => True
     | .ghashText _ => True
     | .ghashFinal => True
     | .sealAad _ => True
     | .sealPt _ => True
     | .sealFinal => True
     | _ => False) → t.x = 0#128

/-! ## Rules of the whole machine -/

/-- No command writes CTRL, KEY, NONCE, DIN, A, B, CMD or WERR (R47, R54, R58, R129). -/
def Obligations.CommandsKeepHostRegisters : Prop :=
  ∀ (w : Word) (s t : State), runWord w s = .next t →
    t.ctrl = s.ctrl ∧ t.key = s.key ∧ t.nonce = s.nonce ∧ t.din = s.din ∧ t.a = s.a ∧ t.b = s.b ∧ t.cmd = s.cmd ∧
    t.werr = s.werr ∧ t.agenda = s.agenda ∧ t.busLog = s.busLog

/-- R42: CTR_WRAP is set exactly by a completion without error of CTR_INC, KS_XOR or SEAL_PT whose counter field was
0xFFFFFFFF, kept by every other completion and host access, and cleared only by a W1C write or reset. -/
def Obligations.WrapFlagIsSticky : Prop :=
  (∀ (i : Instr) (s t : State), exec i s = .next t →
    (t.ctrWrap = true ↔ s.ctrWrap = true ∨
      (t.err = false ∧ s.ctr.extractLsb' 0 32 = 0xFFFFFFFF#32 ∧
        (i = .ctrInc ∨ (∃ n, i = .ksXor n) ∨ ∃ n, i = .sealPt n)))) ∧
  (∀ (w : Word) (s t : State), (∃ why, decode w = .illegal why) → runWord w s = .next t → t.ctrWrap = s.ctrWrap) ∧
  (∀ (acc : Access) (d : Word) (s : State), (busWrite acc d s).ctrWrap =
    (s.ctrWrap && !(decide (target acc = some .status) && d.getLsbD 8))) ∧
  (∀ s : State, (resetCore s).ctrWrap = false)

/-- WERR is set exactly by a write to a mapped word that BUSY or a flow lock makes the core ignore, cleared only by a W1C
write or reset, and kept by every completion (R43; that BUSY decides before read-only is R87's order, log entry 8). -/
def Obligations.LostWriteFlag : Prop :=
  (∀ (r : WinReg) (d : Word) (s : State), r ≠ .status →
    ((busWrite r.access d s).werr = true ↔ s.werr = true ∨ s.inFlight ≠ none ∨
      ((s.seq = .slAad ∨ s.seq = .slText) ∧
        (r = .ctrl ∨ (∃ k, r = .key k) ∨ (∃ k, r = .nonce k) ∨ ∃ k, r = .block .ctr k ∨ r = .block .h k)) ∨
      ((s.seq = .ghAad ∨ s.seq = .ghText) ∧ ∃ k, r = .block .h k))) ∧
  (∀ (d : Word) (s : State), (busWrite WinReg.status.access d s).werr = (s.werr && !d.getLsbD 9)) ∧
  (∀ (acc : Access) (d : Word) (s : State), target acc = none → (busWrite acc d s).werr = s.werr) ∧
  (∀ (w : Word) (s t : State), runWord w s = .next t → t.werr = s.werr) ∧
  ∀ s : State, (resetCore s).werr = false

/-- One step that begins and ends in a seal flow keeps CTRL, KEY, NONCE, J0 and H, whatever the step is (R93, R355). -/
def Obligations.SealFixesKeyNonceSubkey : Prop :=
  ∀ s t : State, s.seq.isSeal = true → step s = .next t → t.seq.isSeal = true →
    t.ctrl = s.ctrl ∧ t.key = s.key ∧ t.nonce = s.nonce ∧ t.j0 = s.j0 ∧ t.h = s.h

/-- A seal flow ends only by a reset or by a completion of SEAL_FINAL, of CLEAR or of a command that raises an error
(R160, R162, R350). -/
def Obligations.OnlyTheseLeaveASeal : Prop :=
  ∀ s t : State, s.seq.isSeal = true → step s = .next t → t.seq.isSeal = false →
    (∃ rest, s.agenda = .reset :: rest) ∨
    ((s.agenda = [] ∨ ∃ rest, s.agenda = .complete :: rest) ∧ ∃ w, s.inFlight = some w ∧
      (t.err = true ∨ decode w = .command .sealFinal ∨ decode w = .command .clear))

/-- R262: SEAL_PT in its phase with BLKCNT = 2^32 - 2 completes with MESSAGE_TOO_LONG and ABORTs the seal; and in every
state of the seal invariant the counter block a SEAL_PT below the limit uses has a field from 2 to 0xFFFFFFFF and is not
J0. -/
def Obligations.MessageTooLong : Prop :=
  (∀ (n : BitVec 5) (s : State), 1 ≤ n.toNat → n.toNat ≤ 16 →
    (s.seq = .slAad ∨ s.seq = .slText ∧ s.partialBlk = false) → s.blkcnt.toNat = 2 ^ 32 - 2 →
    ∃ t, exec (.sealPt n) s = .next t ∧ t.err = true ∧ t.errCode = .messageTooLong ∧ t.seq = .idle ∧
      t.dout = 0#128 ∧ t.x = 0#128 ∧ t.ctr = 0#128 ∧ t.j0 = 0#128 ∧ t.tag = 0#128 ∧ t.blkcnt = 0#32) ∧
  (∀ s : State, s.SealInv → s.seq.isSeal = true → s.blkcnt.toNat < 2 ^ 32 - 2 →
    2 ≤ (s.ctr.extractLsb' 0 32).toNat ∧ s.ctr ≠ s.j0)

/-- In a seal the k-th SEAL_PT uses J0 with counter field k + 1 and leaves BLKCNT = k (R263, which the spec derives from R255
and R257), and only the one with k = 2^32 - 2 sets CTR_WRAP (R257, Flags), in every state of the seal invariant. The block
used is read off portLog, the model's own record (log entry 7). -/
def Obligations.SealCounterFollowsBlockCount : Prop :=
  ∀ (n : BitVec 5) (s t : State), s.SealInv → s.seq.isSeal = true → exec (.sealPt n) s = .next t → t.err = false →
    s.ctr = s.j0.extractLsb' 32 96 ++ (BitVec.ofNat 32 (s.blkcnt.toNat + 2)) ∧
    t.blkcnt.toNat = s.blkcnt.toNat + 1 ∧
    t.portLog.head? = some { key := keyBytes s, block := s.ctr } ∧
    (s.ctrWrap = false → (t.ctrWrap = true ↔ t.blkcnt.toNat = 2 ^ 32 - 2))

/-- The machine's invariant holds after reset. -/
def Obligations.InvariantAtReset : Prop := State.reset.Inv

/-- Every step keeps the invariant: STATUS is consistent (R41, R44, R156, R309), a seal flow keeps what SEAL_INIT fixed
(R93, R257, R263), and the length counters and BLKCNT stay in their ranges (R55, R56). -/
def Obligations.InvariantKeptByStep : Prop :=
  ∀ s t : State, s.Inv → step s = .next t → t.Inv

/-! ## The source's operations by command -/

/-- Writing startCounter to CTR and issuing KS_XOR for each chunk of the data in order, the first bytes of DOUT read after
each, gives applyKeystream(data, key, startCounter), of the data's length; no data gives no command (R208, which the spec
derives from R204 and R207). The sequence has no other event between its accesses and completions, a completion standing
for POLL (log entry 28, the model's choice). -/
def Obligations.KeystreamByCommand : Prop :=
  ∀ (data : List Byte) (start : Block) (s : State), s.inFlight = none → s.seq ≠ .slAad → s.seq ≠ .slText →
    (s.ctrl.keyLen = 16#6 ∨ s.ctrl.keyLen = 24#6 ∨ s.ctrl.keyLen = 32#6) →
    (∃ t, hostKeystream data (load128 .ctr start s) = some (applyKeystream data (keyBytes s) start, t) ∧
      (data = [] → t = load128 .ctr start s)) ∧
    (applyKeystream data (keyBytes s) start).length = data.length

/-- GHASH_INIT, the blocks of A, the blocks of C and GHASH_FINAL complete without error and leave X = GHASH(C, A, H) and the
two bit lengths, for every A and C whose bit lengths fit 64 bits (R229; R235, which the spec derives from R220, R221, R226
and R231 to R234). The sequence has no other event between its accesses and completions, a completion standing for POLL
(log entry 28, the model's choice). -/
def Obligations.GhashByCommand : Prop :=
  ∀ (c a : List Byte) (s : State), s.inFlight = none → s.seq ≠ .slAad → s.seq ≠ .slText →
    8 * a.length < 2 ^ 64 → 8 * c.length < 2 ^ 64 →
    ∃ t, hostGhash c a s = some t ∧ t.x = ghash c a s.h ∧ t.lenA.toNat = 8 * a.length ∧ t.lenC.toNat = 8 * c.length

/-- SEAL_INIT, the associated data, the plaintext with DOUT read after each block, SEAL_FINAL and TAG give
seal(plaintext, key, nonce, associatedData), for every message within the limits of R262 and R229; the output is 16 bytes
longer than the plaintext (R251; R259, which the spec derives from R250, R255 to R258, R204 and R235). The sequence has no
other event between its accesses and completions, a completion standing for POLL (log entry 28, the model's choice). -/
def Obligations.SealByCommand : Prop :=
  ∀ (plaintext aad : List Byte) (s : State), s.inFlight = none → s.seq ≠ .slAad → s.seq ≠ .slText →
    (s.ctrl.keyLen = 16#6 ∨ s.ctrl.keyLen = 24#6 ∨ s.ctrl.keyLen = 32#6) → s.ctrl.nonceLen = 12#5 →
    s.ctrl.keepH = false → plaintext.length ≤ 16 * (2 ^ 32 - 2) → 8 * aad.length < 2 ^ 64 →
    (∃ t, hostSeal plaintext aad s = some (sealMessage plaintext (keyBytes s) s.nonce aad, t)) ∧
      (sealMessage plaintext (keyBytes s) s.nonce aad).length = plaintext.length + 16
end

