-- ==== Sys2Proof/Laws/Decode.lean ====
section
/-!
SUPPORT. The opcode table and the fields of a command word: what the decoder's lookup can answer, and a word as its
three fields.
-/

namespace Sys2Proof

/-- One row of the table either answers or is passed over. -/
theorem lookup_row {α : Type} {p : Prop} [Decidable p] {x i : α} {rest : Option α}
    (h : (if p then some x else rest) = some i) : (p ∧ x = i) ∨ rest = some i := by
  by_cases hp : p
  · rw [if_pos hp] at h
    exact .inl ⟨hp, Option.some.inj h⟩
  · rw [if_neg hp] at h
    exact .inr h

/-- What the table answers: a command of that opcode, with `n` as its block length if it takes one (R124). -/
theorem lookup_eq_some {opc : BitVec 8} {n : BitVec 5} {i : Instr} (h : lookup opc n = some i) :
    i.opcode = opc ∧ (i.length? = none ∨ i.length? = some n) := by
  unfold lookup at h
  repeat' first
    | (obtain ⟨rfl, rfl⟩ | h := lookup_row h)
    | exact ⟨rfl, .inl rfl⟩
    | exact ⟨rfl, .inr rfl⟩
    | cases h

/-- The table finds a command by its opcode, with the block length it carries (R124). -/
theorem lookup_opcode (i : Instr) : lookup i.opcode i.lenBits = some i := by
  cases i <;> rfl

/-- A command word is its fields RSV, N and OPC (R120). -/
theorem word_eq_fields (w : Word) : w = rsvField w ++ lenField w ++ opcField w := by
  apply BitVec.eq_of_getLsbD_eq
  intro i hi
  simp only [rsvField, lenField, opcField, BitVec.getLsbD_append, BitVec.getLsbD_extractLsb']
  by_cases h1 : i < 8
  · simp only [h1, decide_true, Bool.true_and, if_true, Nat.zero_add]
  · by_cases h2 : i - 8 < 5
    · simp only [h1, h2, decide_true, Bool.true_and, if_true, if_false, show 8 + (i - 8) = i by omega]
    · simp only [h1, h2, if_false, show i - 8 - 5 < 19 by omega, decide_true, Bool.true_and,
        show 13 + (i - 8 - 5) = i by omega]

/-- The fields of a word put together from them (R120). -/
theorem fields_of_append (r : BitVec 19) (n : BitVec 5) (o : BitVec 8) :
    rsvField (r ++ n ++ o) = r ∧ lenField (r ++ n ++ o) = n ∧ opcField (r ++ n ++ o) = o := by
  refine ⟨?_, ?_, ?_⟩ <;>
  · apply BitVec.eq_of_getLsbD_eq
    intro i hi
    simp only [rsvField, lenField, opcField, BitVec.getLsbD_append, BitVec.getLsbD_extractLsb', hi, decide_true,
      Bool.true_and]
    split_ifs
    all_goals first
      | omega
      | (congr 1; omega)

end Sys2Proof
end

