-- ==== Sys2Proof/Laws/State.lean ====
section
/-!
SUPPORT. What each named update of State leaves in each field, one lemma a field, so that no later proof unfolds an update.
-/

namespace Sys2Proof.Machine

/-! The fields after acceptance (R152). -/

@[simp] theorem accept_ctrl (w : Word) (s : State) : (accept w s).ctrl = s.ctrl := rfl
@[simp] theorem accept_done (w : Word) (s : State) : (accept w s).done = false := rfl
@[simp] theorem accept_err (w : Word) (s : State) : (accept w s).err = false := rfl
@[simp] theorem accept_errCode (w : Word) (s : State) : (accept w s).errCode = .none := rfl
@[simp] theorem accept_ctrWrap (w : Word) (s : State) : (accept w s).ctrWrap = s.ctrWrap := rfl
@[simp] theorem accept_werr (w : Word) (s : State) : (accept w s).werr = s.werr := rfl
@[simp] theorem accept_seq (w : Word) (s : State) : (accept w s).seq = s.seq := rfl
@[simp] theorem accept_partialBlk (w : Word) (s : State) : (accept w s).partialBlk = s.partialBlk := rfl
@[simp] theorem accept_inFlight (w : Word) (s : State) : (accept w s).inFlight = some w := rfl
@[simp] theorem accept_cmd (w : Word) (s : State) : (accept w s).cmd = w := rfl
@[simp] theorem accept_blkcnt (w : Word) (s : State) : (accept w s).blkcnt = s.blkcnt := rfl
@[simp] theorem accept_lenA (w : Word) (s : State) : (accept w s).lenA = s.lenA := rfl
@[simp] theorem accept_lenC (w : Word) (s : State) : (accept w s).lenC = s.lenC := rfl
@[simp] theorem accept_key (w : Word) (s : State) : (accept w s).key = s.key := rfl
@[simp] theorem accept_nonce (w : Word) (s : State) : (accept w s).nonce = s.nonce := rfl
@[simp] theorem accept_din (w : Word) (s : State) : (accept w s).din = s.din := rfl
@[simp] theorem accept_dout (w : Word) (s : State) : (accept w s).dout = s.dout := rfl
@[simp] theorem accept_ctr (w : Word) (s : State) : (accept w s).ctr = s.ctr := rfl
@[simp] theorem accept_j0 (w : Word) (s : State) : (accept w s).j0 = s.j0 := rfl
@[simp] theorem accept_h (w : Word) (s : State) : (accept w s).h = s.h := rfl
@[simp] theorem accept_x (w : Word) (s : State) : (accept w s).x = s.x := rfl
@[simp] theorem accept_tag (w : Word) (s : State) : (accept w s).tag = s.tag := rfl
@[simp] theorem accept_a (w : Word) (s : State) : (accept w s).a = s.a := rfl
@[simp] theorem accept_b (w : Word) (s : State) : (accept w s).b = s.b := rfl
@[simp] theorem accept_z (w : Word) (s : State) : (accept w s).z = s.z := rfl
@[simp] theorem accept_agenda (w : Word) (s : State) : (accept w s).agenda = s.agenda := rfl
@[simp] theorem accept_busLog (w : Word) (s : State) : (accept w s).busLog = s.busLog := rfl
@[simp] theorem accept_portLog (w : Word) (s : State) : (accept w s).portLog = s.portLog := rfl

/-! The fields after the end of a completion step (R155). -/

@[simp] theorem finish_ctrl (s : State) : (finish s).ctrl = s.ctrl := rfl
@[simp] theorem finish_done (s : State) : (finish s).done = true := rfl
@[simp] theorem finish_err (s : State) : (finish s).err = s.err := rfl
@[simp] theorem finish_errCode (s : State) : (finish s).errCode = s.errCode := rfl
@[simp] theorem finish_ctrWrap (s : State) : (finish s).ctrWrap = s.ctrWrap := rfl
@[simp] theorem finish_werr (s : State) : (finish s).werr = s.werr := rfl
@[simp] theorem finish_seq (s : State) : (finish s).seq = s.seq := rfl
@[simp] theorem finish_partialBlk (s : State) : (finish s).partialBlk = s.partialBlk := rfl
@[simp] theorem finish_inFlight (s : State) : (finish s).inFlight = none := rfl
@[simp] theorem finish_cmd (s : State) : (finish s).cmd = s.cmd := rfl
@[simp] theorem finish_blkcnt (s : State) : (finish s).blkcnt = s.blkcnt := rfl
@[simp] theorem finish_lenA (s : State) : (finish s).lenA = s.lenA := rfl
@[simp] theorem finish_lenC (s : State) : (finish s).lenC = s.lenC := rfl
@[simp] theorem finish_key (s : State) : (finish s).key = s.key := rfl
@[simp] theorem finish_nonce (s : State) : (finish s).nonce = s.nonce := rfl
@[simp] theorem finish_din (s : State) : (finish s).din = s.din := rfl
@[simp] theorem finish_dout (s : State) : (finish s).dout = s.dout := rfl
@[simp] theorem finish_ctr (s : State) : (finish s).ctr = s.ctr := rfl
@[simp] theorem finish_j0 (s : State) : (finish s).j0 = s.j0 := rfl
@[simp] theorem finish_h (s : State) : (finish s).h = s.h := rfl
@[simp] theorem finish_x (s : State) : (finish s).x = s.x := rfl
@[simp] theorem finish_tag (s : State) : (finish s).tag = s.tag := rfl
@[simp] theorem finish_a (s : State) : (finish s).a = s.a := rfl
@[simp] theorem finish_b (s : State) : (finish s).b = s.b := rfl
@[simp] theorem finish_z (s : State) : (finish s).z = s.z := rfl
@[simp] theorem finish_agenda (s : State) : (finish s).agenda = s.agenda := rfl
@[simp] theorem finish_busLog (s : State) : (finish s).busLog = s.busLog := rfl
@[simp] theorem finish_portLog (s : State) : (finish s).portLog = s.portLog := rfl

/-! The fields after a successful completion (R155). -/

@[simp] theorem okState_ctrl (s : State) : (okState s).ctrl = s.ctrl := rfl
@[simp] theorem okState_done (s : State) : (okState s).done = true := rfl
@[simp] theorem okState_err (s : State) : (okState s).err = false := rfl
@[simp] theorem okState_errCode (s : State) : (okState s).errCode = .none := rfl
@[simp] theorem okState_ctrWrap (s : State) : (okState s).ctrWrap = s.ctrWrap := rfl
@[simp] theorem okState_werr (s : State) : (okState s).werr = s.werr := rfl
@[simp] theorem okState_seq (s : State) : (okState s).seq = s.seq := rfl
@[simp] theorem okState_partialBlk (s : State) : (okState s).partialBlk = s.partialBlk := rfl
@[simp] theorem okState_inFlight (s : State) : (okState s).inFlight = none := rfl
@[simp] theorem okState_cmd (s : State) : (okState s).cmd = s.cmd := rfl
@[simp] theorem okState_blkcnt (s : State) : (okState s).blkcnt = s.blkcnt := rfl
@[simp] theorem okState_lenA (s : State) : (okState s).lenA = s.lenA := rfl
@[simp] theorem okState_lenC (s : State) : (okState s).lenC = s.lenC := rfl
@[simp] theorem okState_key (s : State) : (okState s).key = s.key := rfl
@[simp] theorem okState_nonce (s : State) : (okState s).nonce = s.nonce := rfl
@[simp] theorem okState_din (s : State) : (okState s).din = s.din := rfl
@[simp] theorem okState_dout (s : State) : (okState s).dout = s.dout := rfl
@[simp] theorem okState_ctr (s : State) : (okState s).ctr = s.ctr := rfl
@[simp] theorem okState_j0 (s : State) : (okState s).j0 = s.j0 := rfl
@[simp] theorem okState_h (s : State) : (okState s).h = s.h := rfl
@[simp] theorem okState_x (s : State) : (okState s).x = s.x := rfl
@[simp] theorem okState_tag (s : State) : (okState s).tag = s.tag := rfl
@[simp] theorem okState_a (s : State) : (okState s).a = s.a := rfl
@[simp] theorem okState_b (s : State) : (okState s).b = s.b := rfl
@[simp] theorem okState_z (s : State) : (okState s).z = s.z := rfl
@[simp] theorem okState_agenda (s : State) : (okState s).agenda = s.agenda := rfl
@[simp] theorem okState_busLog (s : State) : (okState s).busLog = s.busLog := rfl
@[simp] theorem okState_portLog (s : State) : (okState s).portLog = s.portLog := rfl

/-! The fields after ABORT (R159). -/

@[simp] theorem abort_ctrl (s : State) : (abort s).ctrl = s.ctrl := rfl
@[simp] theorem abort_done (s : State) : (abort s).done = s.done := rfl
@[simp] theorem abort_err (s : State) : (abort s).err = s.err := rfl
@[simp] theorem abort_errCode (s : State) : (abort s).errCode = s.errCode := rfl
@[simp] theorem abort_ctrWrap (s : State) : (abort s).ctrWrap = s.ctrWrap := rfl
@[simp] theorem abort_werr (s : State) : (abort s).werr = s.werr := rfl
@[simp] theorem abort_seq (s : State) : (abort s).seq = .idle := rfl
@[simp] theorem abort_partialBlk (s : State) : (abort s).partialBlk = false := rfl
@[simp] theorem abort_inFlight (s : State) : (abort s).inFlight = s.inFlight := rfl
@[simp] theorem abort_cmd (s : State) : (abort s).cmd = s.cmd := rfl
@[simp] theorem abort_blkcnt (s : State) : (abort s).blkcnt = 0#32 := rfl
@[simp] theorem abort_lenA (s : State) : (abort s).lenA = 0#64 := rfl
@[simp] theorem abort_lenC (s : State) : (abort s).lenC = 0#64 := rfl
@[simp] theorem abort_key (s : State) : (abort s).key = s.key := rfl
@[simp] theorem abort_nonce (s : State) : (abort s).nonce = s.nonce := rfl
@[simp] theorem abort_din (s : State) : (abort s).din = s.din := rfl
@[simp] theorem abort_dout (s : State) : (abort s).dout = 0#128 := rfl
@[simp] theorem abort_ctr (s : State) : (abort s).ctr = 0#128 := rfl
@[simp] theorem abort_j0 (s : State) : (abort s).j0 = 0#128 := rfl
@[simp] theorem abort_h (s : State) : (abort s).h = (if s.ctrl.keepH then s.h else 0#128) := rfl
@[simp] theorem abort_x (s : State) : (abort s).x = 0#128 := rfl
@[simp] theorem abort_tag (s : State) : (abort s).tag = 0#128 := rfl
@[simp] theorem abort_a (s : State) : (abort s).a = s.a := rfl
@[simp] theorem abort_b (s : State) : (abort s).b = s.b := rfl
@[simp] theorem abort_z (s : State) : (abort s).z = s.z := rfl
@[simp] theorem abort_agenda (s : State) : (abort s).agenda = s.agenda := rfl
@[simp] theorem abort_busLog (s : State) : (abort s).busLog = s.busLog := rfl
@[simp] theorem abort_portLog (s : State) : (abort s).portLog = s.portLog := rfl

/-! The fields after a cipher request (R320). -/

@[simp] theorem request_ctrl (v : Block) (s : State) : (request v s).ctrl = s.ctrl := rfl
@[simp] theorem request_done (v : Block) (s : State) : (request v s).done = s.done := rfl
@[simp] theorem request_err (v : Block) (s : State) : (request v s).err = s.err := rfl
@[simp] theorem request_errCode (v : Block) (s : State) : (request v s).errCode = s.errCode := rfl
@[simp] theorem request_ctrWrap (v : Block) (s : State) : (request v s).ctrWrap = s.ctrWrap := rfl
@[simp] theorem request_werr (v : Block) (s : State) : (request v s).werr = s.werr := rfl
@[simp] theorem request_seq (v : Block) (s : State) : (request v s).seq = s.seq := rfl
@[simp] theorem request_partialBlk (v : Block) (s : State) : (request v s).partialBlk = s.partialBlk := rfl
@[simp] theorem request_inFlight (v : Block) (s : State) : (request v s).inFlight = s.inFlight := rfl
@[simp] theorem request_cmd (v : Block) (s : State) : (request v s).cmd = s.cmd := rfl
@[simp] theorem request_blkcnt (v : Block) (s : State) : (request v s).blkcnt = s.blkcnt := rfl
@[simp] theorem request_lenA (v : Block) (s : State) : (request v s).lenA = s.lenA := rfl
@[simp] theorem request_lenC (v : Block) (s : State) : (request v s).lenC = s.lenC := rfl
@[simp] theorem request_key (v : Block) (s : State) : (request v s).key = s.key := rfl
@[simp] theorem request_nonce (v : Block) (s : State) : (request v s).nonce = s.nonce := rfl
@[simp] theorem request_din (v : Block) (s : State) : (request v s).din = s.din := rfl
@[simp] theorem request_dout (v : Block) (s : State) : (request v s).dout = s.dout := rfl
@[simp] theorem request_ctr (v : Block) (s : State) : (request v s).ctr = s.ctr := rfl
@[simp] theorem request_j0 (v : Block) (s : State) : (request v s).j0 = s.j0 := rfl
@[simp] theorem request_h (v : Block) (s : State) : (request v s).h = s.h := rfl
@[simp] theorem request_x (v : Block) (s : State) : (request v s).x = s.x := rfl
@[simp] theorem request_tag (v : Block) (s : State) : (request v s).tag = s.tag := rfl
@[simp] theorem request_a (v : Block) (s : State) : (request v s).a = s.a := rfl
@[simp] theorem request_b (v : Block) (s : State) : (request v s).b = s.b := rfl
@[simp] theorem request_z (v : Block) (s : State) : (request v s).z = s.z := rfl
@[simp] theorem request_agenda (v : Block) (s : State) : (request v s).agenda = s.agenda := rfl
@[simp] theorem request_busLog (v : Block) (s : State) : (request v s).busLog = s.busLog := rfl
@[simp] theorem request_portLog (v : Block) (s : State) : (request v s).portLog = { key := keyBytes s, block := v } :: s.portLog := rfl

/-! The fields after a write to STATUS (R38). -/

@[simp] theorem writeStatus_ctrl (d : Word) (s : State) : (writeStatus d s).ctrl = s.ctrl := rfl
@[simp] theorem writeStatus_done (d : Word) (s : State) : (writeStatus d s).done = (s.done && !d.getLsbD 1) := rfl
@[simp] theorem writeStatus_err (d : Word) (s : State) : (writeStatus d s).err = s.err := rfl
@[simp] theorem writeStatus_errCode (d : Word) (s : State) : (writeStatus d s).errCode = s.errCode := rfl
@[simp] theorem writeStatus_ctrWrap (d : Word) (s : State) : (writeStatus d s).ctrWrap = (s.ctrWrap && !d.getLsbD 8) := rfl
@[simp] theorem writeStatus_werr (d : Word) (s : State) : (writeStatus d s).werr = (s.werr && !d.getLsbD 9) := rfl
@[simp] theorem writeStatus_seq (d : Word) (s : State) : (writeStatus d s).seq = s.seq := rfl
@[simp] theorem writeStatus_partialBlk (d : Word) (s : State) : (writeStatus d s).partialBlk = s.partialBlk := rfl
@[simp] theorem writeStatus_inFlight (d : Word) (s : State) : (writeStatus d s).inFlight = s.inFlight := rfl
@[simp] theorem writeStatus_cmd (d : Word) (s : State) : (writeStatus d s).cmd = s.cmd := rfl
@[simp] theorem writeStatus_blkcnt (d : Word) (s : State) : (writeStatus d s).blkcnt = s.blkcnt := rfl
@[simp] theorem writeStatus_lenA (d : Word) (s : State) : (writeStatus d s).lenA = s.lenA := rfl
@[simp] theorem writeStatus_lenC (d : Word) (s : State) : (writeStatus d s).lenC = s.lenC := rfl
@[simp] theorem writeStatus_key (d : Word) (s : State) : (writeStatus d s).key = s.key := rfl
@[simp] theorem writeStatus_nonce (d : Word) (s : State) : (writeStatus d s).nonce = s.nonce := rfl
@[simp] theorem writeStatus_din (d : Word) (s : State) : (writeStatus d s).din = s.din := rfl
@[simp] theorem writeStatus_dout (d : Word) (s : State) : (writeStatus d s).dout = s.dout := rfl
@[simp] theorem writeStatus_ctr (d : Word) (s : State) : (writeStatus d s).ctr = s.ctr := rfl
@[simp] theorem writeStatus_j0 (d : Word) (s : State) : (writeStatus d s).j0 = s.j0 := rfl
@[simp] theorem writeStatus_h (d : Word) (s : State) : (writeStatus d s).h = s.h := rfl
@[simp] theorem writeStatus_x (d : Word) (s : State) : (writeStatus d s).x = s.x := rfl
@[simp] theorem writeStatus_tag (d : Word) (s : State) : (writeStatus d s).tag = s.tag := rfl
@[simp] theorem writeStatus_a (d : Word) (s : State) : (writeStatus d s).a = s.a := rfl
@[simp] theorem writeStatus_b (d : Word) (s : State) : (writeStatus d s).b = s.b := rfl
@[simp] theorem writeStatus_z (d : Word) (s : State) : (writeStatus d s).z = s.z := rfl
@[simp] theorem writeStatus_agenda (d : Word) (s : State) : (writeStatus d s).agenda = s.agenda := rfl
@[simp] theorem writeStatus_busLog (d : Word) (s : State) : (writeStatus d s).busLog = s.busLog := rfl
@[simp] theorem writeStatus_portLog (d : Word) (s : State) : (writeStatus d s).portLog = s.portLog := rfl

end Sys2Proof.Machine
end

