-- ==== Sys2Proof/Laws/Ops.lean ====
section
/-!
SUPPORT. Once for each shared operation of Machine/Ops.lean and Machine/Operands.lean: everything it can do.
-/

namespace Sys2Proof.Machine

/-- A successful completion answers exactly one state. -/
theorem succeed_eq_next_iff (s t : State) : succeed s = .next t ↔ t = okState s := by
  constructor
  · intro h
    injection h with h
    exact h.symm
  · rintro rfl
    rfl

/-- A raised error answers exactly one state. -/
theorem raiseErr_eq_next_iff (e : ErrCode) (s t : State) : raiseErr e s = .next t ↔ t = errState e s := by
  constructor
  · intro h
    injection h with h
    exact h.symm
  · rintro rfl
    rfl

/-- Outside a seal flow an error changes only STATUS (R160). -/
theorem errState_outside_seal (e : ErrCode) {s : State} (h : s.seq.isSeal = false) :
    errState e s = { s with err := true, errCode := e, inFlight := none, done := true } := by
  simp [errState, finish, h]

/-- In a seal flow an error ABORTs the seal (R160, R311). -/
theorem errState_in_seal (e : ErrCode) {s : State} (h : s.seq.isSeal = true) :
    errState e s = { abort s with err := true, errCode := e, inFlight := none, done := true } := by
  simp [errState, finish, h]

@[simp] theorem errState_err (e : ErrCode) (s : State) : (errState e s).err = true := rfl
@[simp] theorem errState_errCode (e : ErrCode) (s : State) : (errState e s).errCode = e := rfl
@[simp] theorem errState_inFlight (e : ErrCode) (s : State) : (errState e s).inFlight = none := rfl
@[simp] theorem errState_done (e : ErrCode) (s : State) : (errState e s).done = true := rfl

/-- An error leaves no seal flow behind (R159, R160). -/
theorem errState_not_seal (e : ErrCode) (s : State) : (errState e s).seq.isSeal = false := by
  cases h : s.seq.isSeal
  · rw [errState_outside_seal e h]
    exact h
  · rw [errState_in_seal e h]
    rfl

/-- What no error changes: CTRL, KEY, NONCE, DIN, A, B, Z, CMD, CTR_WRAP, WERR and the model's own lists (R159, R160). -/
theorem errState_keeps (e : ErrCode) (s : State) :
    (errState e s).ctrl = s.ctrl ∧ (errState e s).key = s.key ∧ (errState e s).nonce = s.nonce ∧
    (errState e s).din = s.din ∧ (errState e s).a = s.a ∧ (errState e s).b = s.b ∧ (errState e s).z = s.z ∧
    (errState e s).cmd = s.cmd ∧ (errState e s).ctrWrap = s.ctrWrap ∧ (errState e s).werr = s.werr ∧
    (errState e s).agenda = s.agenda ∧ (errState e s).busLog = s.busLog ∧ (errState e s).portLog = s.portLog := by
  cases h : s.seq.isSeal
  · rw [errState_outside_seal e h]
    simp
  · rw [errState_in_seal e h]
    simp

/-- The meanings' length check and the decoder's are each other's opposite (R121, R302). -/
theorem badBlockLength_eq_not_lenLegal (n : BitVec 5) : badBlockLength n = !lenLegal n := by
  revert n
  decide

/-- The seal phases (R93). -/
theorem isSeal_iff (q : FlowState) : q.isSeal = true ↔ q = .slAad ∨ q = .slText := by
  cases q <;> decide

/-- The GHASH-only phases (R93). -/
theorem isGhash_iff (q : FlowState) : q.isGhash = true ↔ q = .ghAad ∨ q = .ghText := by
  cases q <;> decide

/-- `aadOK` in the words of R163. -/
theorem aadOK_iff (q : FlowState) (s : State) : aadOK q s = true ↔ s.seq = q ∧ s.partialBlk = false := by
  simp [aadOK]

/-- `textOK` in the words of R163. -/
theorem textOK_iff (p q : FlowState) (s : State) :
    textOK p q s = true ↔ s.seq = p ∨ (s.seq = q ∧ s.partialBlk = false) := by
  simp [textOK]

/-- The legal key lengths (R35). -/
theorem keyLenLegal_iff (s : State) :
    keyLenLegal s = true ↔ s.ctrl.keyLen = 16#6 ∨ s.ctrl.keyLen = 24#6 ∨ s.ctrl.keyLen = 32#6 := by
  simp [keyLenLegal, or_assoc]

/-- The legal nonce length (R36). -/
theorem nonceLenLegal_iff (s : State) : nonceLenLegal s = true ↔ s.ctrl.nonceLen = 12#5 := by
  simp [nonceLenLegal]

/-- The accumulator step in the terms of R163. -/
theorem absorb_eq (x h v : Block) : absorb x h v = gfMul (x ^^^ v) h := rfl

end Sys2Proof.Machine
end

