-- ==== Sys2Proof/Laws/Exec.lean ====
section
/-!
SUPPORT. Once for all commands: a completion is an error completion, or a successful one of a well-formed command whose
meaning wrote no register of the host's. Later proofs cite these instead of unfolding sixteen meanings.
-/

namespace Sys2Proof.Machine

/-- The registers and records that no command writes (R129): what a meaning's own writes leave in place. -/
structure KeepsHostState (s u : State) : Prop where
  ctrl : u.ctrl = s.ctrl
  werr : u.werr = s.werr
  cmd : u.cmd = s.cmd
  key : u.key = s.key
  nonce : u.nonce = s.nonce
  din : u.din = s.din
  a : u.a = s.a
  b : u.b = s.b
  agenda : u.agenda = s.agenda
  busLog : u.busLog = s.busLog

/-- The state before a command's own writes keeps all of it. -/
theorem KeepsHostState.refl (s : State) : KeepsHostState s s := by
  constructor <;> rfl

/-- An error completion of a command: its code is one of 2 to 7 (R300, R302 to R307). -/
def raisedCodes : List ErrCode :=
  [.badBlockLength, .sequence, .invalidKeyLength, .unsupportedNonceLength, .messageTooLong, .lengthOverflow]

/-- A command either raises one of its errors or completes successfully with its own writes; BAD_BLOCK_LENGTH comes
exactly with an ill-formed block length (R155, R302). -/
theorem exec_cases (i : Instr) (s : State) :
    (∃ e, e ∈ raisedCodes ∧ exec i s = raiseErr e s ∧ (e = .badBlockLength ↔ i.wellFormed = false)) ∨
    (i.wellFormed = true ∧ ∃ u, exec i s = succeed u ∧ KeepsHostState s u) := by
  cases i <;>
    simp only [exec, execNop, execClear, execGfAdd, execGfMul, execCtrInit, execCtrInc, execKsXor, execHDerive,
      execGhashInit, execGhashAad, execGhashText, execGhashFinal, execSealInit, execSealAad, execSealPt,
      execSealFinal, badBlockLength_eq_not_lenLegal] <;>
    (repeat' split) <;>
    first
    | exact .inl ⟨_, by simp [raisedCodes], rfl, by simp_all [Instr.wellFormed, Instr.length?]⟩
    | exact .inr ⟨by simp_all [Instr.wellFormed, Instr.length?], _, rfl, by constructor <;> rfl⟩

/-- What the completion of a word can be (R155): an error completion with its code, or the successful completion of the
well-formed command the word stands for. -/
theorem runWord_cases {w : Word} {s t : State} (h : runWord w s = .next t) :
    (∃ e, (e = .illegalCommand ∨ e ∈ raisedCodes) ∧ t = errState e s) ∨
    (∃ i u, decode w = .command i ∧ exec i s = .next t ∧ t = okState u ∧ KeepsHostState s u) := by
  have hx : ∀ i, exec i s = .next t → (∃ e, (e = .illegalCommand ∨ e ∈ raisedCodes) ∧ t = errState e s) ∨
      (i.wellFormed = true ∧ ∃ u, t = okState u ∧ KeepsHostState s u) := by
    intro i hi
    obtain ⟨e, he, hr, -⟩ | ⟨hw, u, hu, hk⟩ := exec_cases i s
    · rw [hr, raiseErr_eq_next_iff] at hi
      exact .inl ⟨e, .inr he, hi⟩
    · rw [hu, succeed_eq_next_iff] at hi
      exact .inr ⟨hw, u, hi, hk⟩
  unfold runWord at h
  cases hd : decode w with
  | command i =>
    rw [hd] at h
    obtain he | ⟨-, u, hu, hk⟩ := hx i h
    · exact .inl he
    · exact .inr ⟨i, u, rfl, h, hu, hk⟩
  | badLen i =>
    rw [hd] at h
    obtain he | ⟨hw, -⟩ := hx i h
    · exact .inl he
    · exfalso
      unfold decode at hd
      split at hd
      · cases hd
      · split at hd
        · cases hd
        · rename_i j _
          split at hd
          · split at hd <;> cases hd
          · rename_i n hj
            split at hd
            · cases hd
            · rename_i hl
              cases hd
              simp only [Instr.wellFormed, hj] at hw
              exact hl hw
  | illegal y =>
    rw [hd] at h
    simp only [raiseErr_eq_next_iff] at h
    exact .inl ⟨_, .inl rfl, h⟩

end Sys2Proof.Machine
end

