-- ==== Sys2Proof/Laws/Operands.lean ====
section
/-!
SUPPORT. Once for the operand forms and the field loop: what each gives in the terms later proofs need.
-/

namespace Sys2Proof.Machine

/-- An illegal block length in numbers (R121). -/
theorem badBlockLength_iff (n : BitVec 5) : badBlockLength n = true ↔ n.toNat = 0 ∨ 16 < n.toNat := by
  simp [badBlockLength]

/-- The increment of a counter block given by its nonce part and its field (R200). -/
theorem inc32_append (n : BitVec 96) (c : BitVec 32) : inc32 (n ++ c) = (n ++ (c + 1#32), c == 0xFFFFFFFF#32) := by
  have hl : (n ++ c).extractLsb' 0 32 = c := by
    apply BitVec.eq_of_getLsbD_eq
    intro i hi
    rw [BitVec.getLsbD_extractLsb', BitVec.getLsbD_append]
    simp [hi]
  have hh : (n ++ c).extractLsb' 32 96 = n := by
    apply BitVec.eq_of_getLsbD_eq
    intro i hi
    rw [BitVec.getLsbD_extractLsb', BitVec.getLsbD_append]
    simp [hi]
  simp only [inc32, hl, hh]

/-- The first counter a seal uses (R255). -/
theorem inc32_initCounter (nonce : BitVec 96) : inc32 (initCounter nonce) = (nonce ++ 2#32, false) := by
  rw [initCounter, inc32_append]
  rfl

/-- A bit length advanced by a block, in numbers (R55). -/
theorem lenAdd_toNat (len : BitVec 64) (n : BitVec 5) :
    (lenAdd len n).toNat = (len.toNat + 8 * n.toNat) % 2 ^ 64 := by
  simp [lenAdd]

/-- The overflow check in numbers (R229). -/
theorem lenOverflows_iff (len : BitVec 64) (n : BitVec 5) :
    lenOverflows len n = true ↔ 2 ^ 64 ≤ len.toNat + 8 * n.toNat := by
  simp [lenOverflows]

/-- Bit `i` of a masked block: bits below `128 - 8 n` are cleared (R202). -/
theorem mask_getLsbD (v : Block) (n i : Nat) (hn : n ≤ 16) (hi : i < 128) :
    (mask v n).getLsbD i = (v.getLsbD i && decide (128 - 8 * n ≤ i)) := by
  have h : (BitVec.ofNat 128 (2 ^ (8 * n) - 1)).getLsbD (i - (128 - 8 * n)) =
      (decide (i - (128 - 8 * n) < 128) && decide (i - (128 - 8 * n) < 8 * n)) := by
    rw [BitVec.getLsbD_ofNat, Nat.testBit_two_pow_sub_one]
  simp only [mask, BitVec.getLsbD_and, BitVec.getLsbD_shiftLeft, h, hi, decide_true, Bool.true_and]
  by_cases hm : 128 - 8 * n ≤ i
  · simp [hm, show i - (128 - 8 * n) < 128 by omega, show i - (128 - 8 * n) < 8 * n by omega,
      show ¬ i < 128 - 8 * n by omega]
  · simp [hm, show i < 128 - 8 * n by omega]

/-- The shift of the multiplication is linear (R182). -/
theorem gfShift_xor (r s : Block) : gfShift (r ^^^ s) = gfShift r ^^^ gfShift s := by
  have hs : (r ^^^ s) >>> 1 = r >>> 1 ^^^ s >>> 1 := BitVec.ushiftRight_xor_distrib r s 1
  unfold gfShift
  rw [BitVec.getLsbD_xor, hs]
  have hr : ∀ a b c : Block, a ^^^ b ^^^ c = a ^^^ c ^^^ b := fun a b c => by
    rw [BitVec.xor_assoc, BitVec.xor_comm b c, ← BitVec.xor_assoc]
  cases r.getLsbD 0 <;> cases s.getLsbD 0
  · simp
  · simp [BitVec.xor_assoc]
  · simpa using hr (r >>> 1) (s >>> 1) gfReduction
  · have hc : r >>> 1 ^^^ gfReduction ^^^ (s >>> 1 ^^^ gfReduction) = r >>> 1 ^^^ s >>> 1 := by
      rw [← BitVec.xor_assoc, hr (r >>> 1) gfReduction (s >>> 1), BitVec.xor_assoc _ gfReduction, BitVec.xor_self,
        BitVec.xor_zero]
    simpa using hc.symm

/-- The sum the loop starts from is only added to its result (R182). -/
theorem gfMulLoop_sum (a : Block) (k : Nat) (r sum : Block) :
    gfMulLoop a k r sum = sum ^^^ gfMulLoop a k r 0#128 := by
  induction k generalizing r sum with
  | zero => simp [gfMulLoop]
  | succ pos ih =>
    simp only [gfMulLoop]
    rw [ih, ih (sum := if a.getLsbD pos then 0#128 ^^^ r else 0#128)]
    cases a.getLsbD pos <;> simp [BitVec.xor_assoc]

/-- One turn of the loop, the sum taken out (R182). -/
theorem gfMulLoop_succ (a : Block) (pos : Nat) (r : Block) :
    gfMulLoop a (pos + 1) r 0#128 = (if a.getLsbD pos then r else 0#128) ^^^ gfMulLoop a pos (gfShift r) 0#128 := by
  rw [gfMulLoop, gfMulLoop_sum]
  cases a.getLsbD pos <;> simp

end Sys2Proof.Machine
end

