-- ==== Sys2Proof/Laws/PerInstr.lean ====
section
/-!
SUPPORT. One lemma for each command about the fields of its word.
-/

namespace Sys2Proof.Laws.EncodeShape

/-- The word of a command has RSV 0, its block length or 0 in N, and its opcode in OPC (R120 to R123, R130). -/
def Statement (i : Instr) : Prop :=
  rsvField (encode i) = 0#19 ∧ lenField (encode i) = i.lenBits ∧ opcField (encode i) = i.opcode

theorem nop : Statement .nop := by
  unfold Statement
  decide

theorem gfAdd : Statement .gfAdd := by
  unfold Statement
  decide

theorem gfMul : Statement .gfMul := by
  unfold Statement
  decide

theorem ctrInit : Statement .ctrInit := by
  unfold Statement
  decide

theorem ctrInc : Statement .ctrInc := by
  unfold Statement
  decide

theorem ksXor (n : BitVec 5) : Statement (.ksXor n) := by
  revert n
  unfold Statement
  decide

theorem hDerive : Statement .hDerive := by
  unfold Statement
  decide

theorem ghashInit : Statement .ghashInit := by
  unfold Statement
  decide

theorem ghashAad (n : BitVec 5) : Statement (.ghashAad n) := by
  revert n
  unfold Statement
  decide

theorem ghashText (n : BitVec 5) : Statement (.ghashText n) := by
  revert n
  unfold Statement
  decide

theorem ghashFinal : Statement .ghashFinal := by
  unfold Statement
  decide

theorem sealInit : Statement .sealInit := by
  unfold Statement
  decide

theorem sealAad (n : BitVec 5) : Statement (.sealAad n) := by
  revert n
  unfold Statement
  decide

theorem sealPt (n : BitVec 5) : Statement (.sealPt n) := by
  revert n
  unfold Statement
  decide

theorem sealFinal : Statement .sealFinal := by
  unfold Statement
  decide

theorem clear : Statement .clear := by
  unfold Statement
  decide

end Sys2Proof.Laws.EncodeShape
end

