-- ==== Sys2Proof/Laws/Window.lean ====
section
/-!
SUPPORT. The register window: the words of a wide register, and what an access to a mapped word does.
-/

namespace Sys2Proof.Machine

/-- Bit `i` of word `k` of a wide register (R85). -/
theorem wordAt_getLsbD {w : Nat} (v : BitVec w) (k i : Nat) :
    (wordAt v k).getLsbD i = (decide (i < 32) && v.getLsbD (w - 32 * (k + 1) + i)) := by
  simp [wordAt]

/-- Bit `i` of a wide register after its word `k` has been replaced (R85). -/
theorem setWordAt_getLsbD {w : Nat} (v : BitVec w) (k : Nat) (d : Word) (hk : 32 * (k + 1) ≤ w) (i : Nat) (hi : i < w) :
    (setWordAt v k d).getLsbD i =
      if w - 32 * (k + 1) ≤ i ∧ i < w - 32 * k then d.getLsbD (i - (w - 32 * (k + 1))) else v.getLsbD i := by
  have hm : (BitVec.ofNat w 0xFFFFFFFF).getLsbD (i - (w - 32 * (k + 1))) =
      decide (i - (w - 32 * (k + 1)) < 32) := by
    rw [BitVec.getLsbD_ofNat, show (0xFFFFFFFF : Nat) = 2 ^ 32 - 1 from rfl, Nat.testBit_two_pow_sub_one]
    simp [show i - (w - 32 * (k + 1)) < w by omega]
  simp only [setWordAt, BitVec.getLsbD_or, BitVec.getLsbD_and, BitVec.getLsbD_not, BitVec.getLsbD_shiftLeft,
    BitVec.getLsbD_setWidth, hm]
  by_cases h1 : i < w - 32 * (k + 1)
  · simp only [hi, h1, show ¬(w - 32 * (k + 1) ≤ i) by omega, decide_true]
    simp
  · by_cases h2 : i < w - 32 * k
    · simp only [hi, h1, h2, show w - 32 * (k + 1) ≤ i by omega, show i - (w - 32 * (k + 1)) < 32 by omega,
        show i - (w - 32 * (k + 1)) < w by omega, decide_true, decide_false]
      simp
    · have hd : d.getLsbD (i - (w - 32 * (k + 1))) = false := BitVec.getLsbD_of_ge _ _ (by omega)
      simp only [hi, h1, h2, hd, show ¬(i - (w - 32 * (k + 1)) < 32) by omega, decide_true, decide_false]
      simp

/-- A word written reads back (R87). -/
theorem wordAt_setWordAt_same {w : Nat} (v : BitVec w) (k : Nat) (d : Word) (hk : 32 * (k + 1) ≤ w) :
    wordAt (setWordAt v k d) k = d := by
  apply BitVec.eq_of_getLsbD_eq
  intro i hi
  rw [wordAt_getLsbD, setWordAt_getLsbD v k d hk _ (by omega)]
  simp [hi, show w - 32 * (k + 1) + i < w - 32 * k by omega]

/-- The other words are untouched (R87, R95). -/
theorem wordAt_setWordAt_ne {w : Nat} (v : BitVec w) (j k : Nat) (d : Word) (hj : 32 * (j + 1) ≤ w)
    (hk : 32 * (k + 1) ≤ w) (h : j ≠ k) : wordAt (setWordAt v k d) j = wordAt v j := by
  apply BitVec.eq_of_getLsbD_eq
  intro i hi
  rw [wordAt_getLsbD, wordAt_getLsbD, setWordAt_getLsbD v k d hk _ (by omega)]
  have : ¬(w - 32 * (k + 1) ≤ w - 32 * (j + 1) + i ∧ w - 32 * (j + 1) + i < w - 32 * k) := by
    rintro ⟨_, _⟩
    rcases Nat.lt_or_gt_of_ne h with h | h
    · have := Nat.mul_le_mul_left 32 h
      omega
    · have := Nat.mul_le_mul_left 32 h
      omega
  rw [if_neg this]

/-- The register map finds each word at its own offset (R84). -/
theorem regAt_offset (r : WinReg) : regAt r.offset = some r := by
  cases r with
  | key k => revert k; decide
  | nonce k => revert k; decide
  | block r k => cases r <;> revert k <;> decide
  | _ => decide

/-- A 32-bit access to a word of the window reaches it (R84, R88). -/
theorem target_access (r : WinReg) : target r.access = some r := by
  have h : r.access.legal = true := by
    cases r with
    | key k => revert k; decide
    | nonce k => revert k; decide
    | block r k => cases r <;> revert k <;> decide
    | _ => decide
  rw [target, h]
  exact regAt_offset r

/-- A read of a mapped word (R86). -/
theorem busRead_access (r : WinReg) (s : State) : busRead r.access s = { data := readReg r s, resp := .okay } := by
  simp [busRead, target_access]

/-- A write to a mapped word (R87). -/
theorem busWrite_access (r : WinReg) (d : Word) (s : State) : busWrite r.access d s = writeReg r d s := by
  simp [busWrite, target_access]

end Sys2Proof.Machine
end

