-- ==== Sys2Proof/Laws/Step.lean ====
section
/-!
SUPPORT. Once for the step: everything it can do, and that the agenda a host write stands in does not matter to it.
-/

namespace Sys2Proof.Machine

/-- A store into the window takes no notice of the agenda. -/
theorem storeReg_agenda (r : WinReg) (d : Word) (s : State) (rest : List Event) :
    storeReg r d { s with agenda := rest } = { storeReg r d s with agenda := rest } := by
  cases r with
  | block v k => cases v <;> rfl
  | _ => rfl

/-- A BusWrite takes no notice of the agenda and leaves it alone. -/
theorem busWrite_agenda (acc : Access) (d : Word) (s : State) (rest : List Event) :
    busWrite acc d { s with agenda := rest } = { busWrite acc d s with agenda := rest } := by
  unfold busWrite
  cases target acc with
  | none => rfl
  | some r =>
    simp only [writeReg, storeReg_agenda, show busy { s with agenda := rest } = busy s from rfl,
      show locked r { s with agenda := rest } = locked r s from rfl]
    split_ifs <;> rfl

/-- What one step can do (R97): nothing but pass on, a completion, a host read, a host write, or a reset; the agenda is
advanced, an exhausted one standing for its completion. -/
theorem step_cases {s t : State} (h : step s = .next t) :
    (s.inFlight = none ∧ t = { s with agenda := s.agenda.tail }) ∨
    (∃ w, s.inFlight = some w ∧ (s.agenda = [] ∨ s.agenda.head? = some .complete) ∧
      runWord w { s with agenda := s.agenda.tail } = .next t) ∨
    (∃ acc, s.agenda.head? = some (.read acc) ∧ t = hostRead acc { s with agenda := s.agenda.tail }) ∨
    (∃ acc d, s.agenda.head? = some (.write acc d) ∧ t = hostWrite acc d { s with agenda := s.agenda.tail }) ∨
    (s.agenda.head? = some .reset ∧ t = resetCore { s with agenda := s.agenda.tail }) := by
  have hc : ∀ {u : State}, u.inFlight = s.inFlight → completion u = .next t →
      (s.inFlight = none ∧ t = u) ∨ ∃ w, s.inFlight = some w ∧ runWord w u = .next t := by
    intro u hu hu'
    unfold completion at hu'
    rw [hu] at hu'
    cases hf : s.inFlight with
    | none =>
      rw [hf] at hu'
      injection hu' with hu'
      exact .inl ⟨rfl, hu'.symm⟩
    | some w =>
      rw [hf] at hu'
      exact .inr ⟨w, rfl, hu'⟩
  unfold step at h
  split at h
  · rename_i ha
    have hs : { s with agenda := s.agenda.tail } = s := by
      rw [ha, List.tail_nil, ← ha]
    rw [hs]
    obtain ⟨hf, ht⟩ | ⟨w, hf, hr⟩ := hc rfl h
    · exact .inl ⟨hf, ht⟩
    · exact .inr (.inl ⟨w, hf, .inl ha, hr⟩)
  · rename_i e rest ha
    simp only [ha, List.tail_cons, List.head?_cons]
    cases e with
    | complete =>
      obtain ⟨hf, ht⟩ | ⟨w, hf, hr⟩ := hc (u := { s with agenda := rest }) rfl h
      · exact .inl ⟨hf, ht⟩
      · exact .inr (.inl ⟨w, hf, .inr rfl, hr⟩)
    | read acc =>
      injection h with h
      exact .inr (.inr (.inl ⟨acc, rfl, h.symm⟩))
    | write acc d =>
      injection h with h
      exact .inr (.inr (.inr (.inl ⟨acc, d, rfl, h.symm⟩)))
    | reset =>
      injection h with h
      exact .inr (.inr (.inr (.inr ⟨rfl, h.symm⟩)))

end Sys2Proof.Machine
end

