-- ==== Sys2Proof/Tests/Slice0.lean ====
section
/-!
SUPPORT. Tests. Expected values are those of spec/95_test_vectors.md (the vector's id stands in each docstring) or are
worked out by hand from the rule named. A vector that needs a value of the block cipher takes it as a hypothesis. At the
end, one witness for each statement that has hypotheses.
-/

namespace Sys2Proof.Tests

open Sys2Proof.Machine

/-- The state an outcome goes on to. -/
def after (o : Host.Outcome State Fault Refusal) : State :=
  match o with
  | .next t => t
  | .fault _ => State.reset
  | .refused _ => State.reset

/-- The nonce of the spec's examples. -/
def nonceN : BitVec 96 := 0xcafebabefacedbaddecaf888#96

/-- H of 95_test_vectors.md 2.4. -/
def subkey : Block := 0x66e94bd4ef8a2c3b884cfa59ca342b2e#128

/-- Reset with KEY_LEN = 16 and NONCE_LEN = 12 and the nonce of the examples, as after the boot order of R354. -/
def ready : State :=
  { State.reset with ctrl := { keyLen := 16#6, nonceLen := 12#5, keepH := true, irqEn := true }, nonce := nonceN }

/-- A GHASH-only flow in its associated-data phase with the subkey of 2.4. -/
def ghash0 : State := { ready with seq := .ghAad, h := subkey }

/-- A seal right after SEAL_INIT with KEEP_H = 1 (R255). -/
def seal0 : State :=
  { ready with
    seq := .slAad
    h := subkey
    j0 := 0xcafebabefacedbaddecaf88800000001#128
    ctr := 0xcafebabefacedbaddecaf88800000002#128 }

/-- The premise of S9: the last block but one of the longest message. -/
def sealLast : State :=
  { seal0 with seq := .slText, blkcnt := 0xFFFFFFFD#32, ctr := 0xcafebabefacedbaddecaf888ffffffff#128 }

/-- A state with a command in flight. -/
def inFlight0 (w : Word) : State := accept w ready

/-! ## WellFormed and the assembler: each check refuses an ill-formed command (R121, R130) -/

theorem test_wellFormed_refuses_ksXor_0 : (Instr.ksXor 0#5).wellFormed = false := by decide
theorem test_wellFormed_refuses_ghashAad_17 : (Instr.ghashAad 17#5).wellFormed = false := by decide
theorem test_wellFormed_refuses_ghashText_31 : (Instr.ghashText 31#5).wellFormed = false := by decide
theorem test_wellFormed_refuses_sealAad_0 : (Instr.sealAad 0#5).wellFormed = false := by decide
theorem test_wellFormed_refuses_sealPt_17 : (Instr.sealPt 17#5).wellFormed = false := by decide
theorem test_wellFormed_takes_1_and_16 :
    (Instr.ksXor 1#5).wellFormed = true ∧ (Instr.sealPt 16#5).wellFormed = true := by decide
theorem test_assemble_refuses_17 : assemble (.sealAad 17#5) = none := by decide
theorem test_assemble_SEAL_PT_12 : assemble (.sealPt 12#5) = some 0x00000C32#32 := by decide

/-! ## Decoding (2.7; each word written out as RSV, N, OPC from R120 and R124) -/

theorem test_decode_NOP : decode 0b0000000000000000000_00000_00000000#32 = .command .nop := by decide
theorem test_decode_GF_ADD : decode 0b0000000000000000000_00000_00000001#32 = .command .gfAdd := by decide
theorem test_decode_GF_MUL : decode 0b0000000000000000000_00000_00000010#32 = .command .gfMul := by decide
theorem test_decode_CTR_INIT : decode 0b0000000000000000000_00000_00010000#32 = .command .ctrInit := by decide
theorem test_decode_CTR_INC : decode 0b0000000000000000000_00000_00010001#32 = .command .ctrInc := by decide
theorem test_decode_KS_XOR_4 : decode 0b0000000000000000000_00100_00010010#32 = .command (.ksXor 4#5) := by decide
theorem test_decode_H_DERIVE : decode 0b0000000000000000000_00000_00100000#32 = .command .hDerive := by decide
theorem test_decode_GHASH_INIT : decode 0b0000000000000000000_00000_00100001#32 = .command .ghashInit := by decide
theorem test_decode_GHASH_AAD_16 : decode 0b0000000000000000000_10000_00100010#32 = .command (.ghashAad 16#5) := by decide
theorem test_decode_GHASH_TEXT_1 : decode 0b0000000000000000000_00001_00100011#32 = .command (.ghashText 1#5) := by decide
theorem test_decode_GHASH_FINAL : decode 0b0000000000000000000_00000_00100100#32 = .command .ghashFinal := by decide
theorem test_decode_SEAL_INIT : decode 0b0000000000000000000_00000_00110000#32 = .command .sealInit := by decide
theorem test_decode_SEAL_AAD_4 : decode 0b0000000000000000000_00100_00110001#32 = .command (.sealAad 4#5) := by decide
theorem test_decode_SEAL_PT_12 : decode 0b0000000000000000000_01100_00110010#32 = .command (.sealPt 12#5) := by decide
theorem test_decode_SEAL_FINAL : decode 0b0000000000000000000_00000_00110011#32 = .command .sealFinal := by decide
theorem test_decode_CLEAR : decode 0b0000000000000000000_00000_00111111#32 = .command .clear := by decide
theorem test_decode_illegal :
    decode 0x00000003#32 = .illegal .unknownOpcode ∧ decode 0x000000FF#32 = .illegal .unknownOpcode ∧
    decode 0x00000130#32 = .illegal .lengthNotTaken ∧ decode 0x00002030#32 = .illegal .reservedBits := by decide
theorem test_decode_badLen :
    decode 0x00000012#32 = .badLen (.ksXor 0#5) ∧ decode 0x00001112#32 = .badLen (.ksXor 17#5) ∧
    decode 0x00000023#32 = .badLen (.ghashText 0#5) ∧ decode 0x00001F31#32 = .badLen (.sealAad 31#5) := by decide
theorem test_decodeTableWord : decodeTableWord 32 0x31 = some (.sealAad 0#5) ∧ decodeTableWord 32 0x3F = some .clear ∧
    decodeTableWord 32 0x2031 = none := by decide
theorem test_withFetchWord_runs_CLEAR : step (State.reset.withFetchWord 32 0x3F) = exec .clear (accept 0x3F#32 .reset) := rfl

/-! ## Field arithmetic (2.1) -/

/-- G1. -/
theorem test_GF_ADD_G1 :
    (after (exec .gfAdd { State.reset with
      a := 0x0123456789abcdef0123456789abcdef#128, b := 0xfedcba9876543210fedcba9876543210#128 })).z
    = 0xffffffffffffffffffffffffffffffff#128 := by decide
/-- G6. -/
theorem test_GF_MUL_G6 :
    (after (exec .gfMul { State.reset with
      a := 0x0123456789abcdef0123456789abcdef#128, b := 0xfedcba9876543210fedcba9876543210#128 })).z
    = 0x9113a4573d6e59aaa1f2c5365c0f38cb#128 := by decide +kernel
/-- G15. -/
theorem test_gfMul_G15 : gfMul 1#128 1#128 = 0xe6080000000000000000000000000003#128 := by decide +kernel

/-! ## Counter engine (2.2) -/

/-- C7. -/
theorem test_CTR_INIT_C7 : (after (exec .ctrInit ready)).ctr = 0xcafebabefacedbaddecaf88800000001#128 := by decide
/-- C9. -/
theorem test_CTR_INIT_C9 : statusWord (after (exec .ctrInit State.reset)) = 0x00000056#32 := by decide
/-- C4: no carry into byte 11. -/
theorem test_CTR_INC_C4 :
    (after (exec .ctrInc { State.reset with ctr := 0xffffffffffffffffffffffffffffffff#128 })).ctr
    = 0xffffffffffffffffffffffff00000000#128 := by decide
/-- C2. -/
theorem test_CTR_INC_C2 :
    statusWord (after (exec .ctrInc { State.reset with ctr := 0xcafebabefacedbaddecaf888ffffffff#128 }))
    = 0x00000102#32 := by decide

/-! ## Keystream (2.3) -/

theorem test_mask_12 : mask 0xffffffffffffffffffffffffffffffff#128 12 = 0xffffffffffffffffffffffff00000000#128 := by
  decide
theorem test_mask_15 : mask 0xffffffffffffffffffffffffffffffff#128 15 = 0xffffffffffffffffffffffffffffff00#128 := by
  decide
/-- K2; the hypothesis is the spec's AES-128 value. -/
theorem test_KS_XOR_K2
    (hE : Config.blockCipher (List.replicate 16 0#8) 2#128 = 0x0388dace60b6a392f328c2b971b2fe78#128) :
    (after (exec (.ksXor 4#5) { ready with ctr := 2#128, din := 0x112233445566778899aabbccddeeff00#128 })).dout
    = 0x12aae98a000000000000000000000000#128 := by
  show mask (gfAdd _ (Config.blockCipher (List.replicate 16 0#8) 2#128)) 4 = _
  rw [hE]
  decide
/-- K7. -/
theorem test_KS_XOR_K7 : statusWord (after (exec (.ksXor 16#5) State.reset)) = 0x00000046#32 := by decide

/-! ## GHASH (2.4) -/

/-- H1; the hypothesis is the spec's AES-128 value. -/
theorem test_H_DERIVE_H1 (hE : Config.blockCipher (List.replicate 16 0#8) 0#128 = subkey) :
    (after (exec .hDerive ready)).h = subkey := hE
/-- H12. -/
theorem test_H_DERIVE_H12 : statusWord (after (exec .hDerive { State.reset with seq := .ghAad })) = 0x00000436#32 := by
  decide
/-- The example of R231. -/
theorem test_GHASH_INIT_R231 :
    (after (exec .ghashInit { State.reset with x := 0x5e2ec746917062882c85b0685353deb7#128 })).x = 0#128 := by decide
/-- H6, its first block: the block is one. -/
theorem test_GHASH_AAD_H6 :
    (after (exec (.ghashAad 1#5) { ghash0 with din := 0x80000000000000000000000000000000#128 })).x = subkey := by
  decide +kernel
/-- H13. -/
theorem test_GHASH_AAD_H13 :
    statusWord (after (exec (.ghashAad 16#5) { State.reset with seq := .ghAad, lenA := 0xFFFFFFFFFFFFFF80#64 }))
    = 0x00000476#32 := by decide
/-- H6, its second block, from the state after the first. -/
theorem test_GHASH_TEXT_H6 :
    (after (exec (.ghashText 1#5) { ghash0 with
      x := subkey, partialBlk := true, din := 0x01000000000000000000000000000000#128 })).x
    = 0xc01c428c1d6e9d5e821504d0f5c8f81b#128 := by decide +kernel
/-- H6: STATUS after the second block. -/
theorem test_GHASH_TEXT_H6_status :
    statusWord (after (exec (.ghashText 1#5) { ghash0 with x := subkey, partialBlk := true })) = 0x00002802#32 := by
  decide +kernel
/-- H6, FINAL. -/
theorem test_GHASH_FINAL_H6 :
    (after (exec .ghashFinal { ghash0 with
      seq := .ghText, x := 0xc01c428c1d6e9d5e821504d0f5c8f81b#128, lenA := 8#64, lenC := 8#64 })).x
    = 0x6600c41f12a78b28af0c672d96a62919#128 := by decide +kernel
/-- H11. -/
theorem test_GHASH_FINAL_H11 : statusWord (after (exec .ghashFinal State.reset)) = 0x00000036#32 := by decide

/-! ## Seal (2.5) -/

/-- TC3 and S19: J0 and CTR, with H kept. -/
theorem test_SEAL_INIT_S19 :
    ((after (exec .sealInit { ready with h := subkey })).ctr, (after (exec .sealInit { ready with h := subkey })).h)
    = (0xcafebabefacedbaddecaf88800000002#128, subkey) := by decide
/-- S16. -/
theorem test_SEAL_INIT_S16 : statusWord (after (exec .sealInit seal0)) = 0x00000036#32 := by decide
/-- The example of R256. -/
theorem test_SEAL_AAD_R256 :
    (after (exec (.sealAad 16#5) { seal0 with
      h := 0xb83b533708bf535d0aa6e52980d53b78#128, din := 0xfeedfacedeadbeeffeedfacedeadbeef#128 })).x
    = 0xed56aaf8a72d67049fdb9228edba1322#128 := by decide +kernel
/-- S11: SEQUENCE with ABORT. -/
theorem test_SEAL_AAD_S11 :
    statusWord (after (exec (.sealAad 16#5) { seal0 with partialBlk := true })) = 0x00000036#32 := by decide
/-- TC3, its first block; the hypothesis is the spec's AES-128 value. -/
theorem test_SEAL_PT_TC3
    (hE : ∀ k, Config.blockCipher k 0xcafebabefacedbaddecaf88800000002#128 = 0x9bb22ce7d9f372c1ee2b28722b25f206#128) :
    (after (exec (.sealPt 16#5) { seal0 with din := 0xd9313225f88406e5a55909c5aff5269a#128 })).dout
    = 0x42831ec2217774244b7221b784d0d49c#128 := by
  show mask (gfAdd _ (Config.blockCipher (keyBytes seal0) 0xcafebabefacedbaddecaf88800000002#128)) 16 = _
  rw [hE]
  decide
/-- S10: MESSAGE_TOO_LONG with ABORT, CTR_WRAP kept. -/
theorem test_SEAL_PT_S10 :
    statusWord (after (exec (.sealPt 1#5) { sealLast with blkcnt := 0xFFFFFFFE#32, ctrWrap := true }))
    = 0x00000166#32 := by decide
/-- The example of R258, X. -/
theorem test_SEAL_FINAL_R258 :
    (after (exec .sealFinal { seal0 with
      h := 0xb83b533708bf535d0aa6e52980d53b78#128, x := 0x1590df9b2eb6768289e57d56274c8570#128
      lenA := 160#64, lenC := 480#64 })).x = 0x698e57f70e6ecc7fd9463b7260a9ae5f#128 := by decide +kernel
/-- S20: with H = 0 and no block the tag is E(J0). -/
theorem test_SEAL_FINAL_S20 (e : Block) (hE : ∀ k, Config.blockCipher k seal0.j0 = e) :
    (after (exec .sealFinal { seal0 with h := 0#128 })).tag = e := by
  have h : absorb 0#128 0#128 0#128 = 0#128 := by decide +kernel
  show gfAdd (Config.blockCipher _ seal0.j0) (absorb 0#128 0#128 0#128) = e
  rw [hE, h]
  exact BitVec.xor_zero

/-! ## Housekeeping and raw words (2.6, 2.7) -/

/-- N1. -/
theorem test_NOP_N1 : statusWord (after (exec .nop seal0)) = 0x00000C02#32 := by decide
/-- N3. -/
theorem test_CLEAR_N3 :
    statusWord (after (exec .clear { State.reset with ctrWrap := true, werr := true })) = 0x00000302#32 := by decide
/-- N2: H is dropped even with KEEP_H = 1, NONCE is kept. -/
theorem test_CLEAR_N2 : ((after (exec .clear seal0)).h, (after (exec .clear seal0)).nonce) = (0#128, nonceN) := by decide
/-- N4. -/
theorem test_word_N4 : statusWord (after (runWord 0x00000100#32 State.reset)) = 0x00000016#32 := by decide
/-- Check order of 2.7: the length before the sequence. -/
theorem test_word_check_order :
    statusWord (after (runWord 0x00000032#32 State.reset)) = 0x00000026#32 ∧
    statusWord (after (runWord 0x00001032#32 State.reset)) = 0x00000036#32 := by decide

/-! ## Bus accesses (2.8) -/

/-- B1, B2, B3, B13. -/
theorem test_bus_reads :
    busRead { offset := 0x000#12, width := 32, lanes := 0xF#4 } ready = { data := 0x47434D01#32, resp := .okay } ∧
    busRead { offset := 0x002#12, width := 32, lanes := 0xF#4 } ready = { data := 0#32, resp := .slverr } ∧
    busRead { offset := 0x024#12, width := 32, lanes := 0xF#4 } ready = { data := 0#32, resp := .slverr } ∧
    busRead { offset := 0x000#12, width := 16, lanes := 0xF#4 } ready = { data := 0#32, resp := .slverr } := by decide
/-- B6 and B7. -/
theorem test_bus_writes_B6_B7 :
    busWrite { offset := 0x0C0#12, width := 32, lanes := 0xF#4 } 5#32 ready = ready ∧
    readReg .ctrl (busWrite { offset := 0x004#12, width := 32, lanes := 0xF#4 } 0xFFFFFFFF#32 ready) = 0x00031F3F#32 := by
  decide
/-- B9. -/
theorem test_bus_writes_B9 :
    statusWord (busWrite { offset := 0x008#12, width := 32, lanes := 0xF#4 } 2#32
      { State.reset with done := true, err := true, errCode := .invalidKeyLength }) = 0x00000044#32 := by decide
/-- B11. -/
theorem test_bus_writes_B11 :
    busWrite { offset := 0x00C#12, width := 32, lanes := 0xF#4 } 1#32 (inFlight0 2#32)
    = { inFlight0 2#32 with werr := true } := by decide
/-- H15 and S18: the locks. -/
theorem test_bus_writes_locked :
    busWrite { offset := 0x0B0#12, width := 32, lanes := 0xF#4 } 1#32 ghash0 = { ghash0 with werr := true } ∧
    busWrite { offset := 0x040#12, width := 32, lanes := 0xF#4 } 1#32 seal0 = { seal0 with werr := true } := by decide
/-- R85: word 1 of DIN is bytes 4 to 7. -/
theorem test_bus_writes_din1 :
    (busWrite { offset := 0x074#12, width := 32, lanes := 0xF#4 } 0x11223344#32 ready).din
    = 0x00000000112233440000000000000000#128 := by decide

/-! ## Host notation (R135, R354) -/

/-- The boot order, a NOP and a POLL, as in the example of R170. -/
theorem test_boot_and_poll :
    (poll 2 (inFlight0 0#32)).map Prod.fst = some 0x00000002#32 ∧
    (bootEvents { keyLen := 24#6, nonceLen := 12#5, keepH := false, irqEn := false } 0#256 nonceN).length = 11 := by
  decide

/-! ## Witnesses: for each statement with hypotheses, a state and operands that meet all of them together -/

theorem witness_DecodeOfEncode :
    (Instr.ksXor 1#5).wellFormed = true ∧ (Instr.sealPt 16#5).wellFormed = true ∧ Instr.nop.wellFormed = true := by decide
theorem witness_EncodeOfDecode :
    (decode 0x00001032#32).instr? = some (.sealPt 16#5) ∧ (decode 0x00001132#32).instr? = some (.sealPt 17#5) ∧
    (decode 0x00000032#32).instr? = some (.sealPt 0#5) := by decide
theorem witness_IllegalCommandExactly :
    (after (runWord 0x00002000#32 ready)).errCode = .illegalCommand ∧
    (after (runWord 0x00000003#32 ready)).errCode = .illegalCommand ∧
    (after (runWord 0x00000101#32 ready)).errCode = .illegalCommand ∧
    (after (runWord 0x00000001#32 ready)).errCode = .none := by decide
theorem witness_BadBlockLengthExactly :
    (after (runWord 0x00000012#32 ready)).errCode = .badBlockLength ∧
    (after (runWord 0x00001122#32 ready)).errCode = .badBlockLength ∧
    (after (runWord 0x00001022#32 ready)).errCode = .sequence := by decide
theorem witness_StepRunsCommandInFlight :
    (inFlight0 0x00001F31#32).inFlight = some 0x00001F31#32 ∧ (decode 0x00001F31#32).instr? = some (.sealAad 31#5) ∧
    (inFlight0 0x00001F31#32).agenda = [] ∧
    ({ inFlight0 0x00001F31#32 with agenda := [.complete, .reset] } : State).agenda = .complete :: [.reset] := by decide
theorem witness_StepPerformsHostEvents :
    ready.inFlight = none ∧ ready.agenda = [] ∧
    ({ ready with agenda := [.complete] } : State).agenda = .complete :: [] ∧
    ({ ready with agenda := [.reset] } : State).agenda = .reset :: [] ∧
    ({ ready with agenda := [rd .id] } : State).agenda = .read WinReg.id.access :: [] ∧
    ({ ready with agenda := [wr .cmd 2#32] } : State).agenda = .write WinReg.cmd.access 2#32 :: [] := by decide
theorem witness_CommandAcceptance :
    ready.inFlight = none ∧ decode 0x00000040#32 = .illegal .unknownOpcode ∧ (inFlight0 2#32).inFlight ≠ none := by decide
theorem witness_AcceptedWordCompletes :
    (inFlight0 0x80000032#32).inFlight = some 0x80000032#32 ∧ (inFlight0 0x80000032#32).agenda = [] := by decide
theorem witness_InFlightFreezesRegisters :
    (inFlight0 2#32).inFlight ≠ none ∧ target (WinReg.block .din 0).access ≠ some .status ∧
    WinReg.cmd ≠ .status := by decide
theorem witness_FailedCommandWritesOnlyStatus :
    (∃ t, runWord 0x00000040#32 seal0 = .next t ∧ t.err = true ∧ seal0.seq = .slAad) ∧
    ∃ t, runWord 0x00000012#32 ghash0 = .next t ∧ t.err = true ∧ ghash0.seq ≠ .slAad ∧ ghash0.seq ≠ .slText :=
  ⟨⟨_, rfl, rfl, rfl⟩, _, rfl, rfl, by decide, by decide⟩
/-- SEAL_INIT with both lengths illegal: the key length is reported first (2.7, check order). -/
theorem witness_FirstErrorIsReported :
    ∃ t, runWord 0x00000030#32 State.reset = .next t ∧ errorApplies 0x00000030#32 State.reset .invalidKeyLength ∧
      errorApplies 0x00000030#32 State.reset .unsupportedNonceLength ∧
      ∀ e', e'.code.toNat < ErrCode.code .invalidKeyLength →
        ¬ errorApplies 0x00000030#32 State.reset e' := by
  refine ⟨_, rfl, by unfold errorApplies; decide, by unfold errorApplies; decide, ?_⟩
  intro e' he
  cases e' with
  | sequence =>
    rintro ⟨i, hi, hs⟩
    cases i <;> first | exact hs (by unfold seqLegal; decide) | exact absurd hi (by dsimp only [Instr.opcode]; decide)
  | none => exact id
  | authenticationFailure => exact id
  | illegalCommand => unfold errorApplies; decide
  | badBlockLength => unfold errorApplies; decide
  | invalidKeyLength => exact absurd he (by decide)
  | unsupportedNonceLength => exact absurd he (by decide)
  | messageTooLong => exact absurd he (by decide)
  | lengthOverflow => exact absurd he (by decide)
/-- A word for which no error condition holds. -/
theorem witness_FirstErrorIsReported_none :
    ∃ t, runWord 0x00000000#32 State.reset = .next t ∧ ∀ e, ¬ errorApplies 0x00000000#32 State.reset e := by
  refine ⟨_, rfl, ?_⟩
  intro e
  cases e with
  | sequence =>
    rintro ⟨i, hi, hs⟩
    cases i <;> first | exact hs trivial | exact absurd hi (by dsimp only [Instr.opcode]; decide)
  | none => exact id
  | authenticationFailure => exact id
  | _ => unfold errorApplies; decide
theorem witness_ReservedCodesNeverRaised : ∃ t, runWord 0x00000032#32 seal0 = .next t ∧ t.errCode = .badBlockLength :=
  ⟨_, rfl, rfl⟩
theorem witness_SequencingTable :
    (Instr.sealPt 16#5).wellFormed = true ∧ (Instr.sealPt 1#5).wellFormed = true ∧
    (after (exec (.sealPt 16#5) ready)).errCode = .sequence ∧ (after (exec .clear seal0)).err = false := by decide
theorem witness_ErrorCodeRevealsNoSecret :
    State.samePublic seal0 { seal0 with key := 5#256, h := 1#128, x := 2#128, tag := 3#128, din := 4#128 } ∧
    seal0.h ≠ 1#128 ∧ (∃ t, runWord 0x00000012#32 seal0 = .next t) ∧
    ∃ t, runWord 0x00000012#32 { seal0 with key := 5#256, h := 1#128, x := 2#128, tag := 3#128, din := 4#128 } = .next t :=
  ⟨⟨rfl, rfl, rfl, rfl, rfl, rfl⟩, by decide, ⟨_, rfl⟩, _, rfl⟩
theorem witness_CipherCallsPerCommand :
    (∃ t, exec (.ksXor 16#5) ready = .next t ∧ t.err = false) ∧ (∃ t, exec .sealInit ready = .next t ∧ t.err = false) ∧
    ∃ t, exec (.ksXor 16#5) seal0 = .next t ∧ t.err = true :=
  ⟨⟨_, rfl, rfl⟩, ⟨_, rfl, rfl⟩, _, rfl, rfl⟩
/-- Each form of refused access, at the ends of its range. -/
theorem witness_RefusedAccessChangesNothing :
    (8 : Nat) ≠ 32 ∧ (0x7#4 : BitVec 4) ≠ 0xF#4 ∧ (0x002#12 : Offset).toNat % 4 ≠ 0 ∧
    (0x024 ≤ (0x024#12 : Offset).toNat ∧ (0x03C#12 : Offset).toNat ≤ 0x03C) ∧ (0x06C#12 : Offset).toNat = 0x06C ∧
    0x110 ≤ (0x110#12 : Offset).toNat ∧ 0x110 ≤ (0xFFC#12 : Offset).toNat := by decide
theorem witness_ControlLayoutAndWrite :
    (ready.inFlight = none ∧ ready.seq ≠ .slAad ∧ ready.seq ≠ .slText) ∧ (inFlight0 0#32).inFlight ≠ none ∧
    seal0.seq = .slAad ∧ sealLast.seq = .slText := by decide
/-- The first and the last KEY word, written outside a seal, also in a GHASH-only flow: byte 0 and byte 31 of KEY change. -/
theorem witness_WideRegisterWords :
    ready.inFlight = none ∧ ready.seq ≠ .slAad ∧ ready.seq ≠ .slText ∧ ghash0.inFlight = none ∧ ghash0.seq = .ghAad ∧
    keyByte (busWrite (WinReg.key 0).access 0x11223344#32 ready).key 0 = 0x11#8 ∧
    keyByte (busWrite (WinReg.key 7).access 0x11223344#32 ghash0).key 31 = 0x44#8 := by decide
/-- A register that a flow locks, in a state where it is not locked, and one that is never locked. -/
theorem witness_WriteThenRead :
    ready.inFlight = none ∧ WinReg.block .h 3 ≠ .status ∧ WinReg.block .h 3 ≠ .cmd ∧
    (WinReg.block .h 3).readOnly = false ∧ locked (.block .h 3) ready = false ∧
    (WinReg.block .din 0).readOnly = false ∧ locked (.block .din 0) seal0 = false ∧
    WinReg.block .h 0 ≠ .block .h 3 ∧ (WinReg.key 7).readOnly = false ∧ locked (.key 7) ready = false ∧
    ∀ k, WinReg.block .h 3 ≠ .key k := by decide
theorem witness_FlowLocks :
    seal0.inFlight = none ∧ seal0.seq = .slAad ∧ sealLast.inFlight = none ∧ sealLast.seq = .slText ∧
    ghash0.inFlight = none ∧ ghash0.seq = .ghAad ∧ ({ ghash0 with seq := .ghText } : State).seq = .ghText := by decide
theorem witness_ReadOnlyWritesIgnored :
    seal0.inFlight = none ∧ (∃ k, WinReg.block .tag 3 = .block .tag k) ∧ WinReg.lenALo = .lenALo :=
  ⟨rfl, ⟨3, rfl⟩, rfl⟩
theorem witness_Load128RoundTrip :
    seal0.inFlight = none ∧ BlockReg.din = .din ∧ ready.inFlight = none ∧ ready.seq = .idle ∧
    ghash0.inFlight = none ∧ ghash0.seq.isSeal = false := by decide
theorem witness_ResetDiscardsCommand :
    ({ inFlight0 2#32 with agenda := [.reset, .complete] } : State).agenda = .reset :: .complete :: [] ∧
    ({ inFlight0 2#32 with agenda := [.reset, .complete] } : State).inFlight = some 2#32 := by decide
theorem witness_InterruptLevel :
    (∃ t, runWord 2#32 ready = .next t ∧ irq t = true) ∧ ready.inFlight = none ∧ (2#32 : Word).getLsbD 1 = true ∧
    ready.seq ≠ .slAad ∧ ready.seq ≠ .slText ∧ (0x00010C10#32 : Word).getLsbD 17 = false :=
  ⟨⟨_, rfl, rfl⟩, by decide⟩
/-- The reading of a Block as a polynomial that the statement speaks of exists (R13). -/
theorem witness_MultiplicationIsPolynomialProduct :
    ∃ P : Block → Polynomial (ZMod 2),
      ∀ v, P v = ∑ i ∈ Finset.range 128, if v.getLsbD (127 - i) then Polynomial.X ^ i else 0 :=
  ⟨fun v => ∑ i ∈ Finset.range 128, if v.getLsbD (127 - i) then Polynomial.X ^ i else 0, fun _ => rfl⟩
theorem witness_MaskKeepsLeadingBytes :
    1 ≤ 1 ∧ 1 ≤ 16 ∧ 0 < 16 ∧ 15 < 16 ∧ blockByte (mask 0x112233445566778899aabbccddeeff00#128 1) 0 = 0x11#8 ∧
    blockByte (mask 0x112233445566778899aabbccddeeff00#128 1) 1 = 0#8 ∧
    blockByte (mask 0x112233445566778899aabbccddeeffee#128 16) 15 = 0xee#8 := by decide
/-- Both commands whose DOUT the statement speaks of complete on a short block. -/
theorem witness_MaskKeepsLeadingBytes_dout :
    (∃ t, exec (.ksXor 15#5) ready = .next t ∧ t.err = false) ∧ (∃ t, exec (.sealPt 1#5) seal0 = .next t ∧ t.err = false) ∧
    (15#5 : BitVec 5).toNat ≤ 15 ∧ (1#5 : BitVec 5).toNat ≤ 1 :=
  ⟨⟨_, rfl, rfl⟩, ⟨_, rfl, rfl⟩, by decide, by decide⟩
/-- Each legal key length, and a key that differs from another only beyond its KEY_LEN bytes. -/
theorem witness_KeyBytesAreLeading :
    ready.ctrl.keyLen = 16#6 ∧ (7#256 : BitVec 256) ≠ ready.key ∧ (7#256 : BitVec 256) >>> 128 = ready.key >>> 128 ∧
    ({ ready with ctrl := { ready.ctrl with keyLen := 24#6 } } : State).ctrl.keyLen = 24#6 ∧
    ({ ready with ctrl := { ready.ctrl with keyLen := 32#6 } } : State).ctrl.keyLen = 32#6 := by decide
theorem witness_CounterCommandResults :
    ready.seq ≠ .slAad ∧ ready.seq ≠ .slText ∧ ready.ctrl.nonceLen = 12#5 := by decide
theorem witness_KeystreamCommandResult :
    1 ≤ (1#5).toNat ∧ (16#5).toNat ≤ 16 ∧ ready.seq ≠ .slAad ∧ ready.seq ≠ .slText ∧ ready.ctrl.keyLen = 16#6 := by decide
theorem witness_KeystreamInvolution :
    ∃ t u, exec (.ksXor 4#5) ready = .next t ∧ t.err = false ∧
      exec (.ksXor 4#5) { t with ctr := ready.ctr, din := t.dout } = .next u :=
  ⟨_, _, rfl, rfl, rfl⟩
theorem witness_SubkeyAndGhashInitResults :
    ready.seq = .idle ∧ ready.ctrl.keyLen = 16#6 ∧ ghash0.seq ≠ .slAad ∧ ghash0.seq ≠ .slText := by decide
/-- The largest LEN_A that a block of 16 bytes still fits. -/
theorem witness_AssociatedDataResults :
    1 ≤ (16#5).toNat ∧ (16#5).toNat ≤ 16 ∧ ghash0.seq = .ghAad ∧ ghash0.partialBlk = false ∧ seal0.seq = .slAad ∧
    seal0.partialBlk = false ∧
    ({ ghash0 with lenA := 0xFFFFFFFFFFFFFF78#64 } : State).lenA.toNat + 8 * (16#5).toNat < 2 ^ 64 := by decide
theorem witness_GhashTextAndFinalResults :
    1 ≤ (1#5).toNat ∧ (16#5).toNat ≤ 16 ∧ ({ ghash0 with partialBlk := true } : State).seq = .ghAad ∧
    ({ ghash0 with seq := .ghText } : State).seq = .ghText ∧ ({ ghash0 with seq := .ghText } : State).partialBlk = false ∧
    ghash0.lenC.toNat + 8 * (16#5).toNat < 2 ^ 64 := by decide
theorem witness_SealInitResult :
    ready.seq ≠ .slAad ∧ ready.seq ≠ .slText ∧ ready.ctrl.keyLen = 16#6 ∧ ready.ctrl.nonceLen = 12#5 ∧
    ghash0.seq ≠ .slAad ∧ ghash0.seq ≠ .slText := by decide
/-- In the first phase after a short block, and in the second with the last block count below the limit. -/
theorem witness_SealPlaintextResult :
    1 ≤ (1#5).toNat ∧ (16#5).toNat ≤ 16 ∧ ({ seal0 with partialBlk := true } : State).seq = .slAad ∧
    seal0.blkcnt ≠ 0xFFFFFFFE#32 ∧ sealLast.seq = .slText ∧ sealLast.partialBlk = false ∧
    sealLast.blkcnt ≠ 0xFFFFFFFE#32 := by decide
theorem witness_SealFinalResult : seal0.seq = .slAad ∧ sealLast.seq = .slText := by decide
theorem witness_ZeroSubkeyGivesZeroHash :
    (∃ t, exec (.ghashAad 16#5) { ghash0 with h := 0#128 } = .next t ∧ t.err = false) ∧
    (∃ t, exec (.ghashText 1#5) { ghash0 with h := 0#128 } = .next t ∧ t.err = false) ∧
    (∃ t, exec .ghashFinal { ghash0 with h := 0#128 } = .next t ∧ t.err = false) ∧
    (∃ t, exec (.sealAad 16#5) { seal0 with h := 0#128 } = .next t ∧ t.err = false) ∧
    (∃ t, exec (.sealPt 1#5) { seal0 with h := 0#128 } = .next t ∧ t.err = false) ∧
    ∃ t, exec .sealFinal { seal0 with h := 0#128 } = .next t ∧ t.err = false :=
  ⟨⟨_, rfl, rfl⟩, ⟨_, rfl, rfl⟩, ⟨_, rfl, rfl⟩, ⟨_, rfl, rfl⟩, ⟨_, rfl, rfl⟩, _, rfl, rfl⟩
theorem witness_CommandsKeepHostRegisters : ∃ t, runWord 0x0000003F#32 seal0 = .next t ∧ t.x = 0#128 := ⟨_, rfl, rfl⟩
theorem witness_WrapFlagIsSticky :
    (∃ t, exec .ctrInc { ready with ctr := 0xffffffff#128 } = .next t ∧ t.ctrWrap = true) ∧
    decode 0x00000040#32 = .illegal .unknownOpcode ∧ ∃ t, runWord 0x00000040#32 ready = .next t :=
  ⟨⟨_, rfl, rfl⟩, by decide, _, rfl⟩
theorem witness_LostWriteFlag :
    WinReg.ctrl ≠ .status ∧ (busWrite WinReg.ctrl.access 1#32 seal0).werr = true ∧
    (busWrite (WinReg.block .h 0).access 1#32 ghash0).werr = true ∧
    (busWrite WinReg.id.access 1#32 (inFlight0 2#32)).werr = true ∧
    target { offset := 0x024#12, width := 32, lanes := 0xF#4 } = none ∧ (∃ t, runWord 2#32 ready = .next t) :=
  ⟨by decide, by decide, by decide, by decide, by decide, _, rfl⟩
theorem witness_SealFixesKeyNonceSubkey :
    ∃ t, seal0.seq.isSeal = true ∧ step { seal0 with agenda := [wr (.key 0) 9#32] } = .next t ∧ t.seq.isSeal = true :=
  ⟨_, rfl, rfl, rfl⟩
theorem witness_OnlyTheseLeaveASeal :
    ∃ t, step { seal0 with inFlight := some 0x0000003F#32 } = .next t ∧ seal0.seq.isSeal = true ∧ t.seq.isSeal = false :=
  ⟨_, rfl, rfl, rfl⟩
/-- The invariant holds in the seal state of these tests. -/
theorem witness_InvariantKeptByStep : seal0.Inv ∧ ∃ t, step seal0 = .next t := by
  refine ⟨⟨⟨by decide, by decide, by decide, ?_⟩, ?_, by decide, by decide, by decide⟩, _, rfl⟩
  · intro w h
    cases h
  · intro _
    exact ⟨by decide, by decide, by decide, by decide, fun h => absurd h (by decide), by decide, by decide, rfl,
      fun _ => ⟨rfl, rfl, rfl⟩⟩
/-- At the limit, and in the seal invariant just below it. -/
theorem witness_MessageTooLong :
    (1 ≤ (1#5).toNat ∧ (16#5).toNat ≤ 16 ∧ ({ sealLast with blkcnt := 0xFFFFFFFE#32 } : State).seq = .slText ∧
      sealLast.partialBlk = false ∧ ({ sealLast with blkcnt := 0xFFFFFFFE#32 } : State).blkcnt.toNat = 2 ^ 32 - 2) ∧
    sealLast.SealInv ∧ sealLast.seq.isSeal = true ∧ sealLast.blkcnt.toNat < 2 ^ 32 - 2 := by
  refine ⟨by decide, fun _ => ?_, by decide, by decide⟩
  exact ⟨by decide, by decide, by decide, by decide, fun h => absurd h (by decide), by decide, by decide, rfl,
    fun h => absurd h (by decide)⟩
theorem witness_SealCounterFollowsBlockCount :
    sealLast.SealInv ∧ sealLast.seq.isSeal = true ∧ sealLast.ctrWrap = false ∧
    ∃ t, exec (.sealPt 16#5) sealLast = .next t ∧ t.err = false ∧ t.ctrWrap = true :=
  ⟨witness_MessageTooLong.2.1, rfl, rfl, _, rfl, rfl, rfl⟩
theorem witness_KeystreamByCommand :
    ready.inFlight = none ∧ ready.seq ≠ .slAad ∧ ready.seq ≠ .slText ∧ ready.ctrl.keyLen = 16#6 := by decide
theorem witness_GhashByCommand :
    ghash0.inFlight = none ∧ ghash0.seq ≠ .slAad ∧ ghash0.seq ≠ .slText ∧ 8 * ([1#8, 2#8] : List Byte).length < 2 ^ 64 := by
  decide
theorem witness_SealByCommand :
    ({ ready with ctrl := { ready.ctrl with keepH := false } } : State).inFlight = none ∧
    ready.seq ≠ .slAad ∧ ready.seq ≠ .slText ∧ ready.ctrl.keyLen = 16#6 ∧ ready.ctrl.nonceLen = 12#5 ∧
    ({ ready with ctrl := { ready.ctrl with keepH := false } } : State).ctrl.keepH = false ∧
    ([1#8, 2#8, 3#8] : List Byte).length ≤ 16 * (2 ^ 32 - 2) ∧ 8 * ([1#8] : List Byte).length < 2 ^ 64 := by decide

end Sys2Proof.Tests
end

/-! Proofs: the field product is the polynomial product (spec/41_gf128.md R182, R183). -/
namespace Sys2Proof.Proofs.Gf128

open Polynomial
open Sys2Proof Sys2Proof.Machine

/-- The polynomial whose coefficients, from x^0 up, are the bits `k - 1` down to 0 of `v`: what the loop of R182 has
still to multiply by when `k` bits are left. -/
noncomputable def lowBitsPoly (v : Block) (k : Nat) : (ZMod 2)[X] :=
  ∑ i ∈ Finset.range k, if v.getLsbD (k - 1 - i) then X ^ i else 0

/-- The polynomial of a Block: bit `127 - i` is the coefficient of x^i (R13). -/
noncomputable def blockPoly (v : Block) : (ZMod 2)[X] := lowBitsPoly v 128

/-- The polynomial of R183 that products are reduced by. -/
noncomputable def gcmModulus : (ZMod 2)[X] := X ^ 128 + X ^ 7 + X ^ 2 + X + 1

/-- The modulus written out. Proofs rewrite with this equation: Lean's own for the definition compares the powers x^128
by unfolding them. -/
theorem gcmModulus_eq : gcmModulus = X ^ 128 + X ^ 7 + X ^ 2 + X + 1 := by
  unfold gcmModulus
  rfl

@[simp] theorem lowBitsPoly_zero (v : Block) : lowBitsPoly v 0 = 0 := rfl

/-- The loop takes the constant coefficient first; the others have one factor x more. -/
theorem lowBitsPoly_succ (v : Block) (k : Nat) :
    lowBitsPoly v (k + 1) = X * lowBitsPoly v k + if v.getLsbD k then 1 else 0 := by
  have hterm : ∀ i, (if v.getLsbD (k + 1 - 1 - (i + 1)) then (X : (ZMod 2)[X]) ^ (i + 1) else 0) =
      X * if v.getLsbD (k - 1 - i) then X ^ i else 0 := fun i => by
    rw [show k + 1 - 1 - (i + 1) = k - 1 - i by omega, pow_succ', mul_ite, mul_zero]
  rw [lowBitsPoly, lowBitsPoly, Finset.sum_range_succ', Finset.sum_congr rfl fun i _ => hterm i, Finset.mul_sum,
    pow_zero, Nat.add_sub_cancel, Nat.sub_zero]

@[simp] theorem blockPoly_zero : blockPoly 0#128 = 0 := by
  simp [blockPoly, lowBitsPoly]

/-- XOR of Blocks is addition of polynomials (R180). -/
theorem blockPoly_xor (a b : Block) : blockPoly (a ^^^ b) = blockPoly a + blockPoly b := by
  simp only [blockPoly, lowBitsPoly, ← Finset.sum_add_distrib, BitVec.getLsbD_xor]
  refine Finset.sum_congr rfl fun i _ => ?_
  cases a.getLsbD (128 - 1 - i) <;> cases b.getLsbD (128 - 1 - i) <;> simp [CharTwo.add_self_eq_zero]

/-- The reduction constant holds the terms of the modulus below x^128 (R182, R187). -/
theorem blockPoly_gfReduction : blockPoly gfReduction = X ^ 7 + X ^ 2 + X + 1 := by
  have hbits : (Finset.range 128).filter (fun i => gfReduction.getLsbD (128 - 1 - i)) = {7, 2, 1, 0} := by decide
  rw [blockPoly, lowBitsPoly, ← Finset.sum_filter, hbits]
  simp [add_assoc]

/-- Without the reduction, shifting right multiplies by x but drops the term x^128. -/
theorem X_mul_blockPoly_eq_shiftRight (r : Block) :
    X * blockPoly r = blockPoly (r >>> 1) + if r.getLsbD 0 then X ^ 128 else 0 := by
  have hterm : ∀ i ∈ Finset.range 127, (X : (ZMod 2)[X]) * (if r.getLsbD (128 - 1 - i) then X ^ i else 0) =
      if (r >>> 1).getLsbD (128 - 1 - (i + 1)) then X ^ (i + 1) else 0 := fun i hi => by
    have hi' := Finset.mem_range.mp hi
    rw [BitVec.getLsbD_ushiftRight, show 1 + (128 - 1 - (i + 1)) = 128 - 1 - i by omega, pow_succ', mul_ite, mul_zero]
  simp only [blockPoly, lowBitsPoly, Finset.mul_sum]
  rw [Finset.sum_range_succ, Finset.sum_range_succ' _ 127, Finset.sum_congr rfl hterm]
  simp [← pow_succ']

/-- The shift with reduction multiplies by x and takes off the modulus where x^128 appears (R182, R183). -/
theorem X_mul_blockPoly_eq_gfShift (r : Block) :
    X * blockPoly r = blockPoly (gfShift r) + if r.getLsbD 0 then gcmModulus else 0 := by
  rw [X_mul_blockPoly_eq_shiftRight, gfShift]
  cases r.getLsbD 0
  · simp
  · have hred : blockPoly gfReduction + gcmModulus = X ^ 128 := by
      rw [blockPoly_gfReduction, gcmModulus_eq]
      linear_combination (X ^ 7 + X ^ 2 + X + 1) * CharTwo.two_eq_zero (R := (ZMod 2)[X])
    simp [blockPoly_xor, add_assoc, hred]

/-- Modulo the modulus, the shift with reduction is multiplication by x (R183). -/
theorem mk_blockPoly_gfShift (r : Block) :
    AdjoinRoot.mk gcmModulus (blockPoly (gfShift r)) = AdjoinRoot.mk gcmModulus (X * blockPoly r) := by
  rw [X_mul_blockPoly_eq_gfShift]
  cases r.getLsbD 0 <;> simp

/-- The loop with `k` bits of `a` left adds the product of their polynomial and that of the working copy (R182). -/
theorem mk_blockPoly_gfMulLoop (a : Block) (k : Nat) (r : Block) :
    AdjoinRoot.mk gcmModulus (blockPoly (gfMulLoop a k r 0#128)) =
      AdjoinRoot.mk gcmModulus (lowBitsPoly a k * blockPoly r) := by
  induction k generalizing r with
  | zero => simp [gfMulLoop]
  | succ k ih =>
    have hbit : blockPoly (if a.getLsbD k then r else 0#128) = (if a.getLsbD k then 1 else 0) * blockPoly r := by
      cases a.getLsbD k <;> simp
    rw [gfMulLoop_succ, blockPoly_xor, hbit, lowBitsPoly_succ, map_add, ih, map_mul _ (lowBitsPoly a k),
      mk_blockPoly_gfShift, ← map_mul, ← map_add, add_mul, mul_left_comm, mul_assoc, add_comm]

/-- In the ring of polynomials modulo the modulus, `gfMul` is the product (R183). -/
theorem mk_blockPoly_gfMul (a b : Block) :
    AdjoinRoot.mk gcmModulus (blockPoly (gfMul a b)) = AdjoinRoot.mk gcmModulus (blockPoly a * blockPoly b) :=
  mk_blockPoly_gfMulLoop a 128 b

/-- Settles O32: the two sides agree modulo the modulus, so they differ by a multiple of it. -/
theorem multiplicationIsPolynomialProduct : Obligations.MultiplicationIsPolynomialProduct := by
  intro P hP a b
  have hPoly : P = blockPoly := funext hP
  obtain ⟨q, hq⟩ := AdjoinRoot.mk_eq_mk.mp (mk_blockPoly_gfMul a b).symm
  refine ⟨q, ?_⟩
  rw [hPoly, ← gcmModulus_eq]
  linear_combination hq

end Sys2Proof.Proofs.Gf128

/-! Proofs: the key bytes the cipher port is asked with (spec/00_scope.md R12; spec/10_state.md R45). -/
namespace Sys2Proof.Proofs.KeyBytes

open Sys2Proof Sys2Proof.Machine

/-- Up to the 32 bytes KEY has, the key bytes are bytes 0 to `len - 1` (R12). -/
theorem keyBytesOf_eq_map (k : BitVec 256) (len : Nat) (hlen : len ≤ 32) :
    keyBytesOf k len = (List.range len).map (keyByte k) := by
  rw [keyBytesOf, ← List.map_take, List.take_range, Nat.min_eq_left hlen]

/-- A byte among the first `len` is read from the top `8 * len` bits of KEY (R45). -/
theorem keyByte_eq_extract_shiftRight (k : BitVec 256) (len i : Nat) (hlen : len ≤ 32) (hi : i < len) :
    keyByte k i = (k >>> (256 - 8 * len)).extractLsb' (8 * (len - 1 - i)) 8 := by
  refine BitVec.eq_of_getLsbD_eq fun j hj => ?_
  rw [keyByte, BitVec.getLsbD_extractLsb', BitVec.getLsbD_extractLsb', BitVec.getLsbD_ushiftRight,
    show 256 - 8 * len + (8 * (len - 1 - i) + j) = 248 - 8 * i + j by omega]

/-- Keys that agree on the first `len` bytes have the same key bytes (R45). -/
theorem keyBytesOf_congr (k k' : BitVec 256) (len : Nat) (hlen : len ≤ 32)
    (h : k >>> (256 - 8 * len) = k' >>> (256 - 8 * len)) : keyBytesOf k len = keyBytesOf k' len := by
  rw [keyBytesOf_eq_map k len hlen, keyBytesOf_eq_map k' len hlen]
  refine List.map_congr_left fun i hi => ?_
  have hi' := List.mem_range.mp hi
  rw [keyByte_eq_extract_shiftRight k len i hlen hi', keyByte_eq_extract_shiftRight k' len i hlen hi', h]

/-- Settles O36: all three legal lengths are at most 32, and the rest holds for every such length. -/
theorem keyBytesAreLeading : Obligations.KeyBytesAreLeading := by
  intro s hlegal
  have hlen : s.ctrl.keyLen.toNat ≤ 32 := by
    obtain h | h | h := hlegal <;> simp [h]
  have hbytes : keyBytes s = (List.range s.ctrl.keyLen.toNat).map (keyByte s.key) := keyBytesOf_eq_map _ _ hlen
  refine ⟨?_, fun i hi => ?_, fun k hk => ?_⟩
  · rw [hbytes, List.length_map, List.length_range]
  · rw [hbytes, List.getElem?_map, List.getElem?_range hi, Option.map_some, keyByte]
  · exact keyBytesOf_congr k s.key s.ctrl.keyLen.toNat hlen hk

end Sys2Proof.Proofs.KeyBytes

/-! Proofs: what a host write does, once for every word of the window (spec/20_memory.md R87 to R93). -/
namespace Sys2Proof.Proofs.HostWrite

open Sys2Proof Sys2Proof.Machine

/-- BUSY is 0 exactly without a command in flight (R39). -/
theorem busy_eq_false_iff (s : State) : busy s = false ↔ s.inFlight = none := by
  simp [busy]

/-- BUSY is 1 exactly with a command in flight (R39). -/
theorem busy_eq_true_iff (s : State) : busy s = true ↔ s.inFlight ≠ none := by
  simp [busy, Option.isSome_iff_ne_none]

/-- The words that R93 locks, each named by its flow. -/
theorem locked_iff (r : WinReg) (s : State) :
    locked r s = true ↔
      ((s.seq = .slAad ∨ s.seq = .slText) ∧
        (r = .ctrl ∨ (∃ k, r = .key k) ∨ (∃ k, r = .nonce k) ∨ ∃ k, r = .block .ctr k ∨ r = .block .h k)) ∨
      ((s.seq = .ghAad ∨ s.seq = .ghText) ∧ ∃ k, r = .block .h k) := by
  rw [locked, Bool.or_eq_true, Bool.and_eq_true, Bool.and_eq_true, isSeal_iff, isGhash_iff]
  cases r with
  | block v k => cases v <;> simp [WinReg.sealLocked, WinReg.ghashLocked]
  | _ => simp [WinReg.sealLocked, WinReg.ghashLocked]

/-- No flow locks a read-only word (R89, R93). -/
theorem locked_of_readOnly {r : WinReg} (s : State) (h : r.readOnly = true) : locked r s = false := by
  cases r with
  | block v k => cases v <;> simp_all [locked, WinReg.readOnly, WinReg.sealLocked, WinReg.ghashLocked]
  | _ => simp_all [locked, WinReg.readOnly, WinReg.sealLocked, WinReg.ghashLocked]

/-! ### One equation for each part of R87 -/

@[simp] theorem writeReg_status (d : Word) (s : State) : writeReg .status d s = writeStatus d s := rfl

theorem writeReg_of_busy {r : WinReg} (d : Word) {s : State} (hr : r ≠ .status) (hb : busy s = true) :
    writeReg r d s = { s with werr := true } := by
  simp [writeReg, hr, hb]

theorem writeReg_cmd (d : Word) {s : State} (hb : busy s = false) : writeReg .cmd d s = accept d s := by
  simp [writeReg, hb]

theorem writeReg_of_readOnly {r : WinReg} (d : Word) {s : State} (hb : busy s = false) (h : r.readOnly = true) :
    writeReg r d s = s := by
  have hs : r ≠ .status := by rintro rfl; cases h
  have hc : r ≠ .cmd := by rintro rfl; cases h
  simp [writeReg, hs, hc, hb, h]

theorem writeReg_of_locked {r : WinReg} (d : Word) {s : State} (hb : busy s = false) (h : locked r s = true) :
    writeReg r d s = { s with werr := true } := by
  have hs : r ≠ .status := by rintro rfl; simp [locked, WinReg.sealLocked, WinReg.ghashLocked] at h
  have hc : r ≠ .cmd := by rintro rfl; simp [locked, WinReg.sealLocked, WinReg.ghashLocked] at h
  have hro : r.readOnly = false := Bool.eq_false_iff.mpr fun hro => by simp [locked_of_readOnly s hro] at h
  simp [writeReg, hs, hc, hb, hro, h]

theorem writeReg_of_unlocked {r : WinReg} (d : Word) {s : State} (hs : r ≠ .status) (hc : r ≠ .cmd)
    (hb : busy s = false) (hro : r.readOnly = false) (h : locked r s = false) :
    writeReg r d s = storeReg r d s := by
  simp [writeReg, hs, hc, hb, hro, h]

/-- Everything a write to a mapped word can do: clear W1C bits, be lost and set WERR, start a command, be ignored, or
store (R87). -/
theorem writeReg_cases (r : WinReg) (d : Word) (s : State) :
    (r = .status ∧ writeReg r d s = writeStatus d s) ∨
    (r ≠ .status ∧ (busy s = true ∨ locked r s = true) ∧ writeReg r d s = { s with werr := true }) ∨
    (r = .cmd ∧ busy s = false ∧ writeReg r d s = accept d s) ∨
    (r.readOnly = true ∧ busy s = false ∧ writeReg r d s = s) ∨
    (r ≠ .status ∧ busy s = false ∧ locked r s = false ∧ writeReg r d s = storeReg r d s) := by
  by_cases hs : r = .status
  · exact .inl ⟨hs, hs ▸ rfl⟩
  cases hb : busy s with
  | true => exact .inr (.inl ⟨hs, .inl rfl, writeReg_of_busy d hs hb⟩)
  | false =>
    by_cases hc : r = .cmd
    · exact .inr (.inr (.inl ⟨hc, rfl, hc ▸ writeReg_cmd d hb⟩))
    cases hro : r.readOnly with
    | true => exact .inr (.inr (.inr (.inl ⟨rfl, rfl, writeReg_of_readOnly d hb hro⟩)))
    | false =>
      cases hl : locked r s with
      | true => exact .inr (.inl ⟨hs, .inr rfl, writeReg_of_locked d hb hl⟩)
      | false => exact .inr (.inr (.inr (.inr ⟨hs, rfl, rfl, writeReg_of_unlocked d hs hc hb hro hl⟩)))

/-! ### What writes leave unchanged -/

/-- The registers that only commands write (R33): what every host write leaves in place. -/
structure KeepsCommandRegs (s u : State) : Prop where
  seq : u.seq = s.seq
  partialBlk : u.partialBlk = s.partialBlk
  blkcnt : u.blkcnt = s.blkcnt
  lenA : u.lenA = s.lenA
  lenC : u.lenC = s.lenC
  dout : u.dout = s.dout
  j0 : u.j0 = s.j0
  x : u.x = s.x
  tag : u.tag = s.tag
  z : u.z = s.z
  portLog : u.portLog = s.portLog

/-- STATUS, CMD and the command in flight: what a plain store leaves in place (R87). -/
structure KeepsStatus (s u : State) : Prop where
  done : u.done = s.done
  err : u.err = s.err
  errCode : u.errCode = s.errCode
  ctrWrap : u.ctrWrap = s.ctrWrap
  werr : u.werr = s.werr
  inFlight : u.inFlight = s.inFlight
  cmd : u.cmd = s.cmd

/-- The registers a seal flow locks (R93). -/
structure KeepsSealLocked (s u : State) : Prop where
  ctrl : u.ctrl = s.ctrl
  key : u.key = s.key
  nonce : u.nonce = s.nonce
  ctr : u.ctr = s.ctr
  h : u.h = s.h

theorem storeReg_keepsCommandRegs (r : WinReg) (d : Word) (s : State) : KeepsCommandRegs s (storeReg r d s) := by
  cases r with
  | block v k => cases v <;> constructor <;> rfl
  | _ => constructor <;> rfl

theorem storeReg_keepsStatus (r : WinReg) (d : Word) (s : State) : KeepsStatus s (storeReg r d s) := by
  cases r with
  | block v k => cases v <;> constructor <;> rfl
  | _ => constructor <;> rfl

/-- A store to a word that a seal does not lock changes no locked register (R93). -/
theorem storeReg_keepsSealLocked {r : WinReg} (d : Word) (s : State) (h : r.sealLocked = false) :
    KeepsSealLocked s (storeReg r d s) := by
  cases r with
  | block v k =>
    cases v with
    | ctr => cases h
    | h => cases h
    | _ => constructor <;> rfl
  | ctrl => cases h
  | key k => cases h
  | nonce k => cases h
  | _ => constructor <;> rfl

theorem writeReg_keepsCommandRegs (r : WinReg) (d : Word) (s : State) : KeepsCommandRegs s (writeReg r d s) := by
  obtain ⟨-, h⟩ | ⟨-, -, h⟩ | ⟨-, -, h⟩ | ⟨-, -, h⟩ | ⟨-, -, -, h⟩ := writeReg_cases r d s <;> rw [h]
  case inr.inr.inr.inr => exact storeReg_keepsCommandRegs r d s
  all_goals constructor <;> rfl

/-- In a seal flow no write to the window changes a locked register (R93). -/
theorem writeReg_keepsSealLocked (r : WinReg) (d : Word) {s : State} (hseal : s.seq.isSeal = true) :
    KeepsSealLocked s (writeReg r d s) := by
  obtain ⟨-, h⟩ | ⟨-, -, h⟩ | ⟨-, -, h⟩ | ⟨-, -, h⟩ | ⟨-, -, hl, h⟩ := writeReg_cases r d s <;> rw [h]
  case inr.inr.inr.inr =>
    rw [locked, hseal, Bool.true_and, Bool.or_eq_false_iff] at hl
    exact storeReg_keepsSealLocked d s hl.1
  all_goals constructor <;> rfl

/-- A write of any form is a write to a mapped word or changes nothing (R87, R88, R91). -/
theorem busWrite_cases (acc : Access) (d : Word) (s : State) :
    (∃ r, target acc = some r ∧ busWrite acc d s = writeReg r d s) ∨
    (target acc = none ∧ busWrite acc d s = s) := by
  cases h : target acc with
  | some r => exact .inl ⟨r, rfl, by simp [busWrite, h]⟩
  | none => exact .inr ⟨rfl, by simp [busWrite, h]⟩

theorem busWrite_keepsCommandRegs (acc : Access) (d : Word) (s : State) : KeepsCommandRegs s (busWrite acc d s) := by
  obtain ⟨r, -, h⟩ | ⟨-, h⟩ := busWrite_cases acc d s <;> rw [h]
  · exact writeReg_keepsCommandRegs r d s
  · constructor <;> rfl

theorem busWrite_keepsSealLocked (acc : Access) (d : Word) {s : State} (hseal : s.seq.isSeal = true) :
    KeepsSealLocked s (busWrite acc d s) := by
  obtain ⟨r, -, h⟩ | ⟨-, h⟩ := busWrite_cases acc d s <;> rw [h]
  · exact writeReg_keepsSealLocked r d hseal
  · constructor <;> rfl

/-! ### The sticky flags and the read-only words -/

/-- CTR_WRAP after a write to a mapped word: only bit 8 of a write to STATUS clears it (R38, R42). -/
theorem writeReg_ctrWrap (r : WinReg) (d : Word) (s : State) :
    (writeReg r d s).ctrWrap = (s.ctrWrap && !(decide (r = .status) && d.getLsbD 8)) := by
  by_cases hs : r = .status
  · simp [hs]
  have hkeep : (writeReg r d s).ctrWrap = s.ctrWrap := by
    obtain ⟨hs', -⟩ | ⟨-, -, h⟩ | ⟨-, -, h⟩ | ⟨-, -, h⟩ | ⟨-, -, -, h⟩ := writeReg_cases r d s
    · exact absurd hs' hs
    · rw [h]
    · rw [h, accept_ctrWrap]
    · rw [h]
    · rw [h, (storeReg_keepsStatus r d s).ctrWrap]
  simp [hkeep, hs]

/-- WERR after a write to a mapped word other than STATUS: the writes lost to BUSY or to a lock set it (R43). -/
theorem writeReg_werr_iff {r : WinReg} (d : Word) (s : State) (hr : r ≠ .status) :
    (writeReg r d s).werr = true ↔ s.werr = true ∨ busy s = true ∨ locked r s = true := by
  obtain ⟨hs, -⟩ | ⟨-, hlost, h⟩ | ⟨rfl, hb, h⟩ | ⟨hro, hb, h⟩ | ⟨-, hb, hl, h⟩ := writeReg_cases r d s
  · exact absurd hs hr
  · simp [h, hlost]
  · simp [h, hb, locked, WinReg.sealLocked, WinReg.ghashLocked]
  · simp [h, hb, locked_of_readOnly s hro]
  · simp [h, (storeReg_keepsStatus r d s).werr, hb, hl]

/-- The read-only words by name (R33, R89). -/
theorem readOnly_iff (r : WinReg) : r.readOnly = true ↔
    r = .id ∨ r = .blkcnt ∨ r = .lenAHi ∨ r = .lenALo ∨ r = .lenCHi ∨ r = .lenCLo ∨
      ∃ k, r = .block .dout k ∨ r = .block .j0 k ∨ r = .block .x k ∨ r = .block .tag k ∨ r = .block .z k := by
  cases r with
  | block v k => cases v <;> simp [WinReg.readOnly]
  | _ => simp [WinReg.readOnly]

/-- Settles O24: the read-only part of R87 for the first half, the frame of every write for the second. -/
theorem readOnlyWritesIgnored : Obligations.ReadOnlyWritesIgnored := by
  refine ⟨fun r d s hidle hr => ⟨?_, ?_⟩, fun acc d s => ?_⟩
  · rw [busWrite_access, writeReg_of_readOnly d ((busy_eq_false_iff s).mpr hidle) ((readOnly_iff r).mpr hr)]
  · simp [busWriteReply, target_access]
  · obtain ⟨hseq, hpart, hblk, hlenA, hlenC, hdout, hj0, hx, htag, hz, hport⟩ := busWrite_keepsCommandRegs acc d s
    exact ⟨hseq, hpart, hblk, hlenA, hlenC, hdout, hj0, hx, htag, hz, hport⟩

/-- Settles O51: the lost writes are those of BUSY and of the locks, and a completion writes no WERR. -/
theorem lostWriteFlag : Obligations.LostWriteFlag := by
  refine ⟨fun r d s hr => ?_, fun d s => ?_, fun acc d s hnone => ?_, fun w s t hrun => ?_, fun s => rfl⟩
  · rw [busWrite_access, writeReg_werr_iff d s hr, busy_eq_true_iff, locked_iff]
  · rw [busWrite_access, writeReg_status, writeStatus_werr]
  · simp [busWrite, hnone]
  · obtain ⟨e, -, rfl⟩ | ⟨i, u, -, -, rfl, hkeep⟩ := runWord_cases hrun
    · obtain ⟨-, -, -, -, -, -, -, -, -, hwerr, -⟩ := errState_keeps e s
      exact hwerr
    · rw [okState_werr, hkeep.werr]

end Sys2Proof.Proofs.HostWrite

/-! Proofs: the words STATUS and CTRL, their fields and their writes (spec/10_state.md R34, R38). -/
namespace Sys2Proof.Proofs.StatusControl

open Sys2Proof Sys2Proof.Machine
open Sys2Proof.Proofs.HostWrite

/-- The flags of the STATUS word (R38). -/
theorem statusWord_flags (s : State) :
    (statusWord s).getLsbD 0 = busy s ∧ (statusWord s).getLsbD 1 = s.done ∧ (statusWord s).getLsbD 2 = s.err ∧
    (statusWord s).getLsbD 3 = false ∧ (statusWord s).getLsbD 8 = s.ctrWrap ∧ (statusWord s).getLsbD 9 = s.werr ∧
    (statusWord s).getLsbD 13 = s.partialBlk := by
  simp only [statusWord, BitVec.getLsbD_append]
  simp [bit]

/-- ERR_CODE stands at bits [7:4] (R38). -/
theorem statusWord_errCode (s : State) : (statusWord s).extractLsb' 4 4 = s.errCode.code := by
  unfold statusWord
  repeat rw [BitVec.extractLsb'_append_eq_of_le (by decide)]
  exact BitVec.extractLsb'_append_eq_right

/-- SEQ stands at bits [12:10] (R38). -/
theorem statusWord_seq (s : State) : (statusWord s).extractLsb' 10 3 = s.seq.code := by
  unfold statusWord
  repeat rw [BitVec.extractLsb'_append_eq_of_le (by decide)]
  exact BitVec.extractLsb'_append_eq_right

/-- The reserved bits [31:14] read 0 (R38). -/
theorem statusWord_reserved (s : State) : (statusWord s).extractLsb' 14 18 = 0#18 := by
  unfold statusWord
  repeat rw [BitVec.extractLsb'_append_eq_of_le (by decide)]
  exact BitVec.extractLsb'_eq_self

/-- Settles O19: the fields stand as the STATUS word lists them, and the write is the W1C write in every state. -/
theorem statusLayoutAndClear : Obligations.StatusLayoutAndClear := by
  refine ⟨fun s => ?_, fun d s => ?_, by decide⟩
  · obtain ⟨hbusy, hdone, herr, hres, hwrap, hwerr, hpart⟩ := statusWord_flags s
    refine ⟨hbusy, hdone, herr, hres, ?_, hwrap, hwerr, ?_, hpart, statusWord_reserved s⟩
    · rw [readReg, statusWord_errCode]
      cases s.errCode <;> rfl
    · rw [readReg, statusWord_seq]
      cases s.seq <;> rfl
  · have hw1c : ∀ flag clr : Bool, (flag && !clr) = if clr then false else flag := by decide
    rw [busWrite_access, writeReg_status, writeStatus, hw1c, hw1c, hw1c]

/-- The fields of the CTRL word and its reserved bits (R34). -/
theorem ctrlWord_fields (c : Ctrl) :
    (ctrlWord c).extractLsb' 0 6 = c.keyLen ∧ (ctrlWord c).extractLsb' 6 2 = 0#2 ∧
    (ctrlWord c).extractLsb' 8 5 = c.nonceLen ∧ (ctrlWord c).extractLsb' 13 3 = 0#3 ∧
    (ctrlWord c).getLsbD 16 = c.keepH ∧ (ctrlWord c).getLsbD 17 = c.irqEn ∧
    (ctrlWord c).extractLsb' 18 14 = 0#14 := by
  unfold ctrlWord
  refine ⟨?keyLen, ?res6, ?nonceLen, ?res13, ?keepH, ?irqEn, ?res18⟩
  case keepH | irqEn =>
    simp only [BitVec.getLsbD_append]
    simp [bit]
  case res18 =>
    repeat rw [BitVec.extractLsb'_append_eq_of_le (by decide)]
    exact BitVec.extractLsb'_eq_self
  all_goals
    repeat rw [BitVec.extractLsb'_append_eq_of_le (by decide)]
    exact BitVec.extractLsb'_append_eq_right

/-- A word written to CTRL reads back without its reserved bits (R34). -/
theorem ctrlWord_ctrlOfWord (d : Word) : ctrlWord (ctrlOfWord d) = d &&& 0x00031F3F#32 := by
  apply BitVec.eq_of_getLsbD_eq
  intro i hi
  simp only [ctrlWord, ctrlOfWord, BitVec.getLsbD_append, BitVec.getLsbD_extractLsb']
  interval_cases i <;> simp [bit]

/-- Settles O20: outside a seal CTRL is neither locked nor read-only; in one, or with BUSY = 1, the write is lost. -/
theorem controlLayoutAndWrite : Obligations.ControlLayoutAndWrite := by
  refine ⟨fun s => ctrlWord_fields s.ctrl, fun d s hidle haad htext => ?_, fun d s hlost => ?_, by decide⟩
  · have hb := (busy_eq_false_iff s).mpr hidle
    have hfree : locked .ctrl s = false := Bool.eq_false_iff.mpr fun h => by simp [locked_iff, haad, htext] at h
    rw [busWrite_access, writeReg_of_unlocked d (by decide) (by decide) hb rfl hfree]
    exact ctrlWord_ctrlOfWord d
  · rw [busWrite_access]
    cases hb : busy s with
    | true => exact writeReg_of_busy d (by decide) hb
    | false =>
      have hseal : s.seq = .slAad ∨ s.seq = .slText :=
        hlost.resolve_left fun h => h ((busy_eq_false_iff s).mp hb)
      exact writeReg_of_locked d hb ((locked_iff _ _).mpr (.inl ⟨hseal, .inl rfl⟩))

end Sys2Proof.Proofs.StatusControl

/-! Proofs: what a command can do, once for all sixteen: raise an error, or pass its checks and make its own writes
(spec/40_command_cycle.md R155; spec/60_exceptions.md R310). -/
namespace Sys2Proof.Proofs.Commands

open Sys2Proof Sys2Proof.Machine

/-- A command's checks of R310 after those of its block length and of the sequence: key and nonce length (R304, R305),
block count (R306) and length counters (R307). -/
def operandsLegal (i : Instr) (s : State) : Prop :=
  match i with
  | .ctrInit => nonceLenLegal s = true
  | .ksXor _ => keyLenLegal s = true
  | .hDerive => keyLenLegal s = true
  | .sealInit => keyLenLegal s = true ∧ nonceLenLegal s = true
  | .ghashAad n => lenOverflows s.lenA n = false
  | .sealAad n => lenOverflows s.lenA n = false
  | .ghashText n => lenOverflows s.lenC n = false
  | .sealPt _ => s.blkcnt ≠ maxBlocks
  | .nop => True
  | .gfAdd => True
  | .gfMul => True
  | .ctrInc => True
  | .ghashInit => True
  | .ghashFinal => True
  | .sealFinal => True
  | .clear => True

/-- A command passes every check of R310 in the state `s`. -/
structure Passes (i : Instr) (s : State) : Prop where
  len : i.wellFormed = true
  seq : seqLegal i s
  operands : operandsLegal i s

/-- The state with the writes of a command that completes without error, before part (3) of its completion (R155). -/
def ownWrites (i : Instr) (s : State) : State :=
  match i with
  | .nop => s
  | .gfAdd => { s with z := gfAdd s.a s.b }
  | .gfMul => { s with z := gfMul s.a s.b }
  | .ctrInit => { s with ctr := initCounter s.nonce }
  | .ctrInc => { s with ctr := (inc32 s.ctr).1, ctrWrap := s.ctrWrap || (inc32 s.ctr).2 }
  | .ksXor n => { request s.ctr s with
      dout := mask (gfAdd s.din (cipher s s.ctr)) n.toNat
      ctr := (inc32 s.ctr).1
      ctrWrap := s.ctrWrap || (inc32 s.ctr).2 }
  | .hDerive => { request 0#128 s with h := cipher s 0#128 }
  | .ghashInit => { s with x := 0#128, lenA := 0#64, lenC := 0#64, seq := .ghAad, partialBlk := false }
  | .ghashAad n => { s with
      x := absorb s.x s.h (mask s.din n.toNat)
      lenA := lenAdd s.lenA n
      partialBlk := shortBlock n }
  | .ghashText n => { s with
      x := absorb s.x s.h (mask s.din n.toNat)
      lenC := lenAdd s.lenC n
      seq := .ghText
      partialBlk := shortBlock n }
  | .ghashFinal => { s with
      x := absorb s.x s.h (lengthBlock s.lenA s.lenC)
      seq := .idle
      partialBlk := false }
  | .sealInit => { (if s.ctrl.keepH then s else { request 0#128 s with h := cipher s 0#128 }) with
      j0 := initCounter s.nonce
      ctr := (inc32 (initCounter s.nonce)).1
      x := 0#128
      tag := 0#128
      dout := 0#128
      lenA := 0#64
      lenC := 0#64
      blkcnt := 0#32
      seq := .slAad
      partialBlk := false }
  | .sealAad n => { s with
      x := absorb s.x s.h (mask s.din n.toNat)
      lenA := lenAdd s.lenA n
      partialBlk := shortBlock n }
  | .sealPt n => { request s.ctr s with
      dout := sealChunk n s
      ctr := (inc32 s.ctr).1
      ctrWrap := s.ctrWrap || (inc32 s.ctr).2
      blkcnt := s.blkcnt + 1#32
      x := absorb s.x s.h (sealChunk n s)
      lenC := lenAdd s.lenC n
      seq := .slText
      partialBlk := shortBlock n }
  | .sealFinal => { request s.j0 s with
      x := absorb s.x s.h (lengthBlock s.lenA s.lenC)
      tag := gfAdd (cipher s s.j0) (absorb s.x s.h (lengthBlock s.lenA s.lenC))
      h := if s.ctrl.keepH then s.h else 0#128
      seq := .idle
      partialBlk := false }
  | .clear => { s with
      x := 0#128
      h := 0#128
      tag := 0#128
      dout := 0#128
      j0 := 0#128
      ctr := 0#128
      z := 0#128
      lenA := 0#64
      lenC := 0#64
      blkcnt := 0#32
      seq := .idle
      partialBlk := false }

/-- An outcome that a command may have: one of its errors, or its own writes after every check has passed (R155). -/
def Answers (i : Instr) (s : State) (o : Host.Outcome State Fault Refusal) : Prop :=
  (∃ e, e ∈ raisedCodes ∧ o = raiseErr e s) ∨ (Passes i s ∧ o = succeed (ownWrites i s))

/-- One check in front of a meaning: its error, or the rest with the check passed. -/
theorem Answers.check {i : Instr} {s : State} {e : ErrCode} {c : Prop} [Decidable c]
    {o : Host.Outcome State Fault Refusal} (he : e ∈ raisedCodes) (h : ¬ c → Answers i s o) :
    Answers i s (if c then raiseErr e s else o) := by
  by_cases hc : c
  · exact .inl ⟨e, he, if_pos hc⟩
  · rw [if_neg hc]
    exact h hc

/-- Behind the checks stand the command's own writes. -/
theorem Answers.success {i : Instr} {s : State} (hlen : i.wellFormed = true) (hseq : seqLegal i s)
    (hop : operandsLegal i s) : Answers i s (succeed (ownWrites i s)) :=
  .inr ⟨⟨hlen, hseq, hop⟩, rfl⟩

/-- The length check in the terms of well-formedness (R121). -/
theorem lenLegal_of_check {n : BitVec 5} (h : ¬ badBlockLength n = true) : lenLegal n = true := by
  simpa [badBlockLength_eq_not_lenLegal] using h

/-- The check that keeps a command out of a seal flow, in the terms of R162. -/
theorem outside_seal_of_check {q : FlowState} (h : ¬ q.isSeal = true) : q ≠ .slAad ∧ q ≠ .slText := by
  rwa [isSeal_iff, not_or] at h

/-- A check written with a negation has passed. -/
theorem passed_of_check {b : Bool} (h : ¬ (!b) = true) : b = true := by
  simpa using h

/-- What each command can do, read off its meaning check by check (R155, R310). -/
theorem exec_answers (i : Instr) (s : State) : Answers i s (exec i s) := by
  cases i with
  | nop => exact .success rfl trivial trivial
  | gfAdd => exact .success rfl trivial trivial
  | gfMul => exact .success rfl trivial trivial
  | clear => exact .success rfl trivial trivial
  | ctrInit =>
    exact .check (by decide) fun hseq => .check (by decide) fun hnonce =>
      .success rfl (outside_seal_of_check hseq) (passed_of_check hnonce)
  | ctrInc => exact .check (by decide) fun hseq => .success rfl (outside_seal_of_check hseq) trivial
  | ksXor n =>
    exact .check (by decide) fun hlen => .check (by decide) fun hseq => .check (by decide) fun hkey =>
      .success (lenLegal_of_check hlen) (outside_seal_of_check hseq) (passed_of_check hkey)
  | hDerive =>
    exact .check (by decide) fun hseq => .check (by decide) fun hkey =>
      .success rfl (not_not.mp hseq) (passed_of_check hkey)
  | ghashInit => exact .check (by decide) fun hseq => .success rfl (outside_seal_of_check hseq) trivial
  | ghashAad n =>
    exact .check (by decide) fun hlen => .check (by decide) fun hseq => .check (by decide) fun hover =>
      .success (lenLegal_of_check hlen) ((aadOK_iff _ _).mp (passed_of_check hseq)) (Bool.eq_false_iff.mpr hover)
  | ghashText n =>
    exact .check (by decide) fun hlen => .check (by decide) fun hseq => .check (by decide) fun hover =>
      .success (lenLegal_of_check hlen) ((textOK_iff _ _ _).mp (passed_of_check hseq)) (Bool.eq_false_iff.mpr hover)
  | ghashFinal =>
    exact .check (by decide) fun hseq => .success rfl ((isGhash_iff _).mp (passed_of_check hseq)) trivial
  | sealInit =>
    exact .check (by decide) fun hseq => .check (by decide) fun hkey => .check (by decide) fun hnonce =>
      .success rfl (outside_seal_of_check hseq) ⟨passed_of_check hkey, passed_of_check hnonce⟩
  | sealAad n =>
    exact .check (by decide) fun hlen => .check (by decide) fun hseq => .check (by decide) fun hover =>
      .success (lenLegal_of_check hlen) ((aadOK_iff _ _).mp (passed_of_check hseq)) (Bool.eq_false_iff.mpr hover)
  | sealPt n =>
    exact .check (by decide) fun hlen => .check (by decide) fun hseq => .check (by decide) fun hmax =>
      .success (lenLegal_of_check hlen) ((textOK_iff _ _ _).mp (passed_of_check hseq)) (mt beq_iff_eq.mpr hmax)
  | sealFinal =>
    exact .check (by decide) fun hseq => .success rfl ((isSeal_iff _).mp (passed_of_check hseq)) trivial

/-- The next state of a command: an error completion, or its own writes with every check passed (R155). -/
theorem exec_next_cases {i : Instr} {s t : State} (h : exec i s = .next t) :
    (∃ e, e ∈ raisedCodes ∧ t = errState e s) ∨ (Passes i s ∧ t = okState (ownWrites i s)) := by
  obtain ⟨e, he, hr⟩ | ⟨hp, hr⟩ := exec_answers i s
  · exact .inl ⟨e, he, (raiseErr_eq_next_iff e s t).mp (hr ▸ h)⟩
  · exact .inr ⟨hp, (succeed_eq_next_iff _ t).mp (hr ▸ h)⟩

/-- The commands that step the counter keep CTR_WRAP or set it where the field wraps; the others keep it (R42, R200). -/
theorem ownWrites_ctrWrap_iff (i : Instr) (s : State) :
    (ownWrites i s).ctrWrap = true ↔ s.ctrWrap = true ∨
      (s.ctr.extractLsb' 0 32 = 0xFFFFFFFF#32 ∧ (i = .ctrInc ∨ (∃ n, i = .ksXor n) ∨ ∃ n, i = .sealPt n)) := by
  cases i with
  | sealInit => cases hk : s.ctrl.keepH <;> simp [ownWrites, hk]
  | _ => simp [ownWrites, inc32]

/-- An error does not touch CTR_WRAP (R42, R159). -/
theorem errState_ctrWrap (e : ErrCode) (s : State) : (errState e s).ctrWrap = s.ctrWrap := by
  obtain ⟨-, -, -, -, -, -, -, -, hwrap, -⟩ := errState_keeps e s
  exact hwrap

/-- Settles O50: an error keeps CTR_WRAP, a success treats it as its own writes say, and a write to STATUS alone can
clear it. -/
theorem wrapFlagIsSticky : Obligations.WrapFlagIsSticky := by
  refine ⟨fun i s t h => ?_, fun w s t ⟨why, hd⟩ hrun => ?_, fun acc d s => ?_, fun s => rfl⟩
  · obtain ⟨e, -, rfl⟩ | ⟨-, rfl⟩ := exec_next_cases h
    · simp [errState_ctrWrap]
    · simp [ownWrites_ctrWrap_iff]
  · rw [runWord, hd] at hrun
    obtain rfl := (raiseErr_eq_next_iff _ _ _).mp hrun
    exact errState_ctrWrap .illegalCommand s
  · obtain ⟨r, hr, h⟩ | ⟨hr, h⟩ := HostWrite.busWrite_cases acc d s
    · simp [h, hr, HostWrite.writeReg_ctrWrap]
    · simp [h, hr]

end Sys2Proof.Proofs.Commands

/-! Proofs: every step keeps the machine's invariant (spec/10_state.md R41 to R44, R55, R56; spec/44_seal.md R255 to
R263). It is proved in two parts that no event mixes: what STATUS shows of the command cycle, and the flow. -/
namespace Sys2Proof.Proofs.Invariant

open Sys2Proof Sys2Proof.Machine
open Sys2Proof.Proofs.HostWrite Sys2Proof.Proofs.Commands

/-- The part of the invariant about the command cycle: ERR, ERR_CODE, and the command in flight (R41, R57, R156). -/
def CycleInv (s : State) : Prop :=
  (s.err = true ↔ s.errCode ≠ .none) ∧ s.errCode ≠ .authenticationFailure ∧
  ∀ w, s.inFlight = some w → s.cmd = w ∧ s.done = false ∧ s.err = false ∧ s.errCode = .none

/-- The part of the invariant about the flow: PARTIAL in IDLE, the seal and the lengths (R44, R55, R56, R93). -/
structure FlowInv (s : State) : Prop where
  idle : s.seq = .idle → s.partialBlk = false
  sealed : s.SealInv
  len : s.LenInv

/-- The two parts are the invariant. -/
theorem inv_iff (s : State) : s.Inv ↔ CycleInv s ∧ FlowInv s := by
  constructor
  · rintro ⟨⟨herr, hauth, hidle, hfly⟩, hseal, hlen⟩
    exact ⟨⟨herr, hauth, hfly⟩, hidle, hseal, hlen⟩
  · rintro ⟨⟨herr, hauth, hfly⟩, hidle, hseal, hlen⟩
    exact ⟨⟨herr, hauth, hidle, hfly⟩, hseal, hlen⟩

/-! ### The command cycle -/

/-- After a successful completion (R155). -/
theorem cycleInv_okState (u : State) : CycleInv (okState u) :=
  ⟨by simp, by simp, fun w hw => by simp at hw⟩

/-- After an error completion with a code that commands raise (R155, R309). -/
theorem cycleInv_errState {e : ErrCode} (s : State) (he : e = .illegalCommand ∨ e ∈ raisedCodes) :
    CycleInv (errState e s) := by
  have hcode : e ≠ .none ∧ e ≠ .authenticationFailure := by
    obtain rfl | he := he
    · decide
    · constructor <;> rintro rfl <;> exact absurd he (by decide)
  exact ⟨by simp [hcode.1], hcode.2, fun w hw => by simp at hw⟩

/-- A state that shows the same of the command cycle. -/
theorem CycleInv.of_keepsStatus {s u : State} (h : CycleInv s) (hk : KeepsStatus s u) : CycleInv u := by
  simpa only [CycleInv, hk.err, hk.errCode, hk.inFlight, hk.cmd, hk.done] using h

theorem CycleInv.writeReg {s : State} (h : CycleInv s) (r : WinReg) (d : Word) : CycleInv (writeReg r d s) := by
  obtain ⟨-, hw⟩ | ⟨-, -, hw⟩ | ⟨-, -, hw⟩ | ⟨-, -, hw⟩ | ⟨-, -, -, hw⟩ := writeReg_cases r d s <;> rw [hw]
  case inl =>
    obtain ⟨herr, hauth, hfly⟩ := h
    refine ⟨herr, hauth, fun w hfl => ?_⟩
    obtain ⟨hcmd, hdone, herr0, hcode0⟩ := hfly w hfl
    exact ⟨hcmd, by simp [hdone], herr0, hcode0⟩
  case inr.inl => exact h
  case inr.inr.inl => exact ⟨by simp, by simp, fun w hfl => by simpa using hfl⟩
  case inr.inr.inr.inl => exact h
  case inr.inr.inr.inr => exact h.of_keepsStatus (storeReg_keepsStatus r d s)

/-! ### The flow: errors, host writes, reset -/

/-- Outside a seal flow the seal invariant asks nothing. -/
theorem sealInv_of_not_seal {s : State} (h : s.seq.isSeal = false) : s.SealInv := by
  intro hs
  rw [h] at hs
  cases hs

/-- An error leaves no seal behind; where it aborts, the lengths are 0 (R159, R160). -/
theorem FlowInv.errState {s : State} (h : FlowInv s) (e : ErrCode) : FlowInv (errState e s) := by
  refine ⟨?_, sealInv_of_not_seal (errState_not_seal e s), ?_⟩ <;>
    cases hs : s.seq.isSeal
  · rw [errState_outside_seal e hs]
    exact h.idle
  · rw [errState_in_seal e hs]
    exact fun _ => rfl
  · rw [errState_outside_seal e hs]
    exact h.len
  · rw [errState_in_seal e hs]
    exact ⟨rfl, rfl, by simp⟩

/-- What the seal invariant reads is written by commands or locked in a seal (R33, R93). -/
theorem FlowInv.of_keeps {s u : State} (h : FlowInv s) (hcmd : KeepsCommandRegs s u)
    (hlock : s.seq.isSeal = true → KeepsSealLocked s u) : FlowInv u := by
  refine ⟨?_, fun hseal => ?_, ?_⟩
  · simpa only [hcmd.seq, hcmd.partialBlk] using h.idle
  · rw [hcmd.seq] at hseal
    obtain ⟨hctrl, hkey, hnonce, hctr, hh⟩ := hlock hseal
    have hold := h.sealed hseal
    simpa only [keyLenLegal, nonceLenLegal, cipher, keyBytes, hctrl, hkey, hnonce, hctr, hh, hcmd.j0, hcmd.blkcnt,
      hcmd.lenC, hcmd.tag, hcmd.seq, hcmd.dout] using hold
  · simpa only [State.LenInv, hcmd.lenA, hcmd.lenC, hcmd.blkcnt] using h.len

theorem FlowInv.busWrite {s : State} (h : FlowInv s) (acc : Access) (d : Word) : FlowInv (busWrite acc d s) :=
  h.of_keeps (busWrite_keepsCommandRegs acc d s) (busWrite_keepsSealLocked acc d)

/-! ### The flow: successful commands -/

/-- A block length that a well-formed command carries is at most 16 (R121). -/
theorem toNat_le_of_lenLegal {n : BitVec 5} (h : lenLegal n = true) : n.toNat ≤ 16 := by
  simp only [lenLegal, Bool.and_eq_true, decide_eq_true_eq] at h
  exact h.2

/-- A length of whole bytes advanced by a block is one of whole bytes (R55). -/
theorem lenAdd_whole_bytes {len : BitVec 64} (n : BitVec 5) (h : len.toNat % 8 = 0) : (lenAdd len n).toNat % 8 = 0 := by
  rw [lenAdd_toNat]
  omega

/-- SEAL_INIT fixes what the seal invariant says (R255). -/
theorem sealInv_sealInit {s : State} (hp : Passes .sealInit s) : (ownWrites .sealInit s).SealInv := by
  intro _
  obtain ⟨hkey, hnonce⟩ := hp.operands
  have hctr : (inc32 (initCounter s.nonce)).1 = s.nonce ++ (0#32 + 2#32) := by
    rw [inc32_initCounter]
    rfl
  cases hk : s.ctrl.keepH <;> simp only [ownWrites, hk] <;>
    refine ⟨hkey, hnonce, rfl, hctr, ?_, by simp, by simp, trivial, fun _ => ⟨trivial, trivial, trivial⟩⟩
  · exact fun _ => rfl
  · exact fun h => absurd (hk.symm.trans h) (by decide)

/-- SEAL_PT advances the counter block and the text counters together, below the limit (R257, R262, R263). -/
theorem FlowInv.sealPt {s : State} {n : BitVec 5} (h : FlowInv s) (hp : Passes (.sealPt n) s) :
    FlowInv (ownWrites (.sealPt n) s) := by
  have hseal : s.seq.isSeal = true := (isSeal_iff _).mpr (hp.seq.imp id And.left)
  obtain ⟨hkey, hnonce, hj0, hctr, hh, hmax, hlenC, htag, -⟩ := h.sealed hseal
  obtain ⟨hwholeA, hwholeC, -⟩ := h.len
  have hn : n.toNat ≤ 16 := toNat_le_of_lenLegal hp.len
  have hbelow : s.blkcnt.toNat < 2 ^ 32 - 2 :=
    lt_of_le_of_ne hmax fun heq => hp.operands (BitVec.eq_of_toNat_eq heq)
  have hblk : (s.blkcnt + 1#32).toNat = s.blkcnt.toNat + 1 := by
    rw [BitVec.toNat_add, BitVec.toNat_ofNat]
    omega
  have hstep : (inc32 s.ctr).1 = s.nonce ++ (s.blkcnt + 1#32 + 2#32) := by
    rw [hctr, inc32_append, BitVec.add_assoc, BitVec.add_assoc, BitVec.add_comm 2#32]
  have hmax' : (s.blkcnt + 1#32).toNat ≤ 2 ^ 32 - 2 := by omega
  have hlenC' : (lenAdd s.lenC n).toNat ≤ 128 * (s.blkcnt + 1#32).toNat := by
    rw [lenAdd_toNat, hblk]
    omega
  exact ⟨nofun, fun _ => ⟨hkey, hnonce, hj0, hstep, hh, hmax', hlenC', htag, nofun⟩,
    hwholeA, lenAdd_whole_bytes n hwholeC, hmax'⟩

/-- SEAL_AAD writes nothing that the seal invariant fixes (R256). -/
theorem FlowInv.sealAad {s : State} {n : BitVec 5} (h : FlowInv s) (hp : Passes (.sealAad n) s) :
    FlowInv (ownWrites (.sealAad n) s) := by
  obtain ⟨hseq, -⟩ := hp.seq
  obtain ⟨hwholeA, hrest⟩ := h.len
  exact ⟨fun hidle => absurd (hseq.symm.trans hidle) (by decide), h.sealed, lenAdd_whole_bytes n hwholeA, hrest⟩

/-- The writes of a command that passed its checks keep the flow's invariant: those legal only outside a seal leave none,
and in a seal only its own commands write what it fixes (R162, R255 to R258). -/
theorem FlowInv.success {i : Instr} {s : State} (h : FlowInv s) (hp : Passes i s) : FlowInv (ownWrites i s) := by
  obtain ⟨hwholeA, hwholeC, hmax⟩ := h.len
  have houtside : s.seq ≠ .slAad ∧ s.seq ≠ .slText → s.seq.isSeal = false := fun hq => by
    rwa [Bool.eq_false_iff, ne_eq, isSeal_iff, not_or]
  cases i with
  | nop => exact h
  | gfAdd => exact ⟨h.idle, h.sealed, h.len⟩
  | gfMul => exact ⟨h.idle, h.sealed, h.len⟩
  | ctrInit => exact ⟨h.idle, sealInv_of_not_seal (houtside hp.seq), h.len⟩
  | ctrInc => exact ⟨h.idle, sealInv_of_not_seal (houtside hp.seq), h.len⟩
  | ksXor n => exact ⟨h.idle, sealInv_of_not_seal (houtside hp.seq), h.len⟩
  | hDerive => exact ⟨h.idle, sealInv_of_not_seal (congrArg FlowState.isSeal hp.seq), h.len⟩
  | ghashInit => exact ⟨nofun, sealInv_of_not_seal rfl, rfl, rfl, hmax⟩
  | ghashAad n =>
    obtain ⟨hseq, -⟩ := hp.seq
    exact ⟨fun hidle => absurd (hseq.symm.trans hidle) (by decide),
      sealInv_of_not_seal (congrArg FlowState.isSeal hseq), lenAdd_whole_bytes n hwholeA, hwholeC, hmax⟩
  | ghashText n => exact ⟨nofun, sealInv_of_not_seal rfl, hwholeA, lenAdd_whole_bytes n hwholeC, hmax⟩
  | ghashFinal => exact ⟨fun _ => rfl, sealInv_of_not_seal rfl, h.len⟩
  | sealInit => exact ⟨nofun, sealInv_sealInit hp, rfl, rfl, by simp [ownWrites]⟩
  | sealAad n => exact h.sealAad hp
  | sealPt n => exact h.sealPt hp
  | sealFinal => exact ⟨fun _ => rfl, sealInv_of_not_seal rfl, h.len⟩
  | clear => exact ⟨fun _ => rfl, sealInv_of_not_seal rfl, rfl, rfl, by simp [ownWrites]⟩

/-! ### One step -/

/-- Every completion step keeps the invariant, whatever the word (R155). -/
theorem inv_runWord {w : Word} {s t : State} (h : s.Inv) (hrun : runWord w s = .next t) : t.Inv := by
  have hflow : FlowInv s := ((inv_iff s).mp h).2
  obtain ⟨e, he, rfl⟩ | ⟨i, -, -, hexec, -, -⟩ := runWord_cases hrun
  · exact (inv_iff _).mpr ⟨cycleInv_errState s he, hflow.errState e⟩
  · obtain ⟨e, he, rfl⟩ | ⟨hp, rfl⟩ := exec_next_cases hexec
    · exact (inv_iff _).mpr ⟨cycleInv_errState s (.inr he), hflow.errState e⟩
    · obtain ⟨hidle, hseal, hlen⟩ := hflow.success hp
      exact (inv_iff _).mpr ⟨cycleInv_okState _, hidle, hseal, hlen⟩

/-- A host write of any form keeps the invariant (R87). -/
theorem inv_busWrite {s : State} (h : s.Inv) (acc : Access) (d : Word) : (busWrite acc d s).Inv := by
  obtain ⟨hcycle, hflow⟩ := (inv_iff s).mp h
  refine (inv_iff _).mpr ⟨?_, hflow.busWrite acc d⟩
  obtain ⟨r, -, hw⟩ | ⟨-, hw⟩ := busWrite_cases acc d s <;> rw [hw]
  · exact hcycle.writeReg r d
  · exact hcycle

/-- The state after reset has the invariant (R351). -/
theorem inv_reset : State.reset.Inv :=
  (inv_iff _).mpr ⟨⟨by decide, by decide, nofun⟩, fun _ => rfl, sealInv_of_not_seal rfl, rfl, rfl, by decide⟩

/-- Settles O57, by the events of R97. The agenda and the log, which steps also change, are none of the invariant's. -/
theorem invariantKeptByStep : Obligations.InvariantKeptByStep := by
  intro s t hinv hstep
  have hadvanced : ({ s with agenda := s.agenda.tail } : State).Inv := hinv
  obtain ⟨-, rfl⟩ | ⟨w, -, -, hrun⟩ | ⟨acc, -, rfl⟩ | ⟨acc, d, -, rfl⟩ | ⟨-, rfl⟩ := step_cases hstep
  · exact hadvanced
  · exact inv_runWord hadvanced hrun
  · exact hadvanced
  · exact inv_busWrite hadvanced acc d
  · exact inv_reset

end Sys2Proof.Proofs.Invariant

/-! Proofs: the register map, and the accesses it refuses (spec/20_memory.md R84, R88, R91). -/
namespace Sys2Proof.Proofs.WindowMap

open Sys2Proof Sys2Proof.Machine

/-- An offset at which no word of the window stands: misaligned or in one of the three unmapped ranges (R84, R88). -/
def Unmapped (off : Offset) : Prop :=
  off.toNat % 4 ≠ 0 ∨ (0x024 ≤ off.toNat ∧ off.toNat ≤ 0x03C) ∨ off.toNat = 0x06C ∨ 0x110 ≤ off.toNat

/-! ### From a word to its offset -/

/-- Each 128-bit register begins a line of 16 bytes, the first at 0x070 and the last at 0x100 (R84). -/
theorem base_in_range (r : BlockReg) : 0x070 ≤ r.base ∧ r.base ≤ 0x100 ∧ r.base % 16 = 0 := by
  cases r <;> decide

theorem toNat_offset_key (k : Fin 8) : (WinReg.key k).offset.toNat = 0x040 + 4 * k.val := by
  simp only [WinReg.offset, BitVec.toNat_ofNat]
  omega

theorem toNat_offset_nonce (k : Fin 3) : (WinReg.nonce k).offset.toNat = 0x060 + 4 * k.val := by
  simp only [WinReg.offset, BitVec.toNat_ofNat]
  omega

theorem toNat_offset_block (r : BlockReg) (k : Fin 4) : (WinReg.block r k).offset.toNat = r.base + 4 * k.val := by
  have hbase := base_in_range r
  simp only [WinReg.offset, BitVec.toNat_ofNat]
  omega

/-- No word stands at an unmapped offset (R84). -/
theorem offset_not_unmapped (r : WinReg) : ¬ Unmapped r.offset := by
  unfold Unmapped
  cases r with
  | key k => rw [toNat_offset_key]; omega
  | nonce k => rw [toNat_offset_nonce]; omega
  | block v k =>
    have hbase := base_in_range v
    rw [toNat_offset_block]
    omega
  | _ => decide

/-- The map finds word `k` of a register of several words at the register's first offset plus `4 * k` (R84). -/
theorem regAt_word {r : WinReg} {base k : Nat} (h : r.offset = BitVec.ofNat 12 (base + 4 * k)) :
    regAt (BitVec.ofNat 12 base + BitVec.ofNat 12 (4 * k)) = some r := by
  rw [← BitVec.ofNat_add, ← h, regAt_offset]

/-! ### From an offset to its word -/

/-- A 128-bit register stands at its own line and at no other (R84). -/
theorem base_of_blockAt {line : Nat} {r : BlockReg} (h : blockAt line = some r) : r.base = 16 * line := by
  unfold blockAt at h
  iterate 10
    obtain ⟨rfl, rfl⟩ | h := lookup_row h
    · rfl
  cases h

/-- Where the map finds a word, the offset is the word's own (R84). -/
theorem offset_of_regAt {off : Offset} {r : WinReg} (h : regAt off = some r) : off = r.offset := by
  apply BitVec.eq_of_toNat_eq
  unfold regAt at h
  generalize off.toNat = n at h ⊢
  by_cases halign : n % 4 ≠ 0
  · rw [if_pos halign] at h
    cases h
  rw [if_neg halign] at h
  iterate 9
    obtain ⟨hn, rfl⟩ | h := lookup_row h
    · exact hn
  obtain ⟨hn, rfl⟩ | h := lookup_row h
  · rw [toNat_offset_key, Fin.val_ofNat]
    omega
  obtain ⟨hn, rfl⟩ | h := lookup_row h
  · rw [toNat_offset_nonce, Fin.val_ofNat]
    omega
  split at h
  next v hv =>
    cases h
    rw [toNat_offset_block, base_of_blockAt hv, Fin.val_ofNat]
    omega
  next => cases h

theorem regAt_eq_some_iff (off : Offset) (r : WinReg) : regAt off = some r ↔ off = r.offset :=
  ⟨offset_of_regAt, fun h => h ▸ regAt_offset r⟩

/-- A row of the map that does not answer is passed over. -/
theorem row_eq_none {α : Type} {p : Prop} [Decidable p] {x : α} {rest : Option α}
    (h : (if p then some x else rest) = none) : ¬ p ∧ rest = none := by
  by_cases hp : p
  · rw [if_pos hp] at h
    cases h
  · rw [if_neg hp] at h
    exact ⟨hp, h⟩

/-- The lines that hold no 128-bit register lie before 0x070 and after 0x10F (R84). -/
theorem line_of_blockAt_eq_none {line : Nat} (h : blockAt line = none) : line < 0x07 ∨ 0x10 < line := by
  unfold blockAt at h
  iterate 10
    obtain ⟨hn, h⟩ := row_eq_none h
  omega

/-- Where the map finds no word, the offset is one of the unmapped ones (R84). -/
theorem unmapped_of_regAt {off : Offset} (h : regAt off = none) : Unmapped off := by
  unfold regAt at h
  unfold Unmapped
  generalize off.toNat = n at h ⊢
  by_cases halign : n % 4 ≠ 0
  · exact .inl halign
  rw [if_neg halign] at h
  iterate 11
    obtain ⟨hn, h⟩ := row_eq_none h
  split at h
  next => cases h
  next hline =>
    have hline' := line_of_blockAt_eq_none hline
    omega

theorem regAt_eq_none_iff (off : Offset) : regAt off = none ↔ Unmapped off := by
  refine ⟨unmapped_of_regAt, fun h => Option.eq_none_iff_forall_ne_some.mpr fun r hr => ?_⟩
  rw [offset_of_regAt hr] at h
  exact offset_not_unmapped r h

/-- Settles O17: the map inverts the offsets, each register's first offset is the one R84 gives, and the unmapped
offsets are those no word has. -/
theorem registerMapIsOneToOne : Obligations.RegisterMapIsOneToOne := by
  refine ⟨regAt_eq_some_iff, ?_, fun k => regAt_word rfl, fun k => regAt_word rfl, fun k => ?_, regAt_eq_none_iff⟩
  · exact ⟨regAt_offset .id, regAt_offset .ctrl, regAt_offset .status, regAt_offset .cmd, regAt_offset .blkcnt,
      regAt_offset .lenAHi, regAt_offset .lenALo, regAt_offset .lenCHi, regAt_offset .lenCLo⟩
  · exact ⟨regAt_word rfl, regAt_word rfl, regAt_word rfl, regAt_word rfl, regAt_word rfl, regAt_word rfl,
      regAt_word rfl, regAt_word rfl, regAt_word rfl, regAt_word rfl⟩

/-! ### Refused accesses -/

/-- The alignment check of an access speaks of its two lowest offset bits (R88). -/
theorem aligned_iff (off : Offset) : off.extractLsb' 0 2 = 0#2 ↔ off.toNat % 4 = 0 := by
  rw [← BitVec.toNat_inj, BitVec.extractLsb'_toNat, Nat.shiftRight_zero]
  rfl

/-- The form of a legal access (R88). -/
theorem legal_iff (acc : Access) :
    acc.legal = true ↔ acc.width = 32 ∧ acc.lanes = 0xF#4 ∧ acc.offset.toNat % 4 = 0 := by
  simp [Access.legal, aligned_iff, and_assoc]

/-- The accesses that reach no word: those of a refused form and those to an unmapped offset (R88, R91). -/
theorem target_eq_none_iff (acc : Access) :
    target acc = none ↔ acc.width ≠ 32 ∨ acc.lanes ≠ 0xF#4 ∨ Unmapped acc.offset := by
  have hmis : acc.offset.toNat % 4 ≠ 0 → Unmapped acc.offset := .inl
  rw [target, ite_eq_right_iff, legal_iff, regAt_eq_none_iff]
  tauto

/-- Settles O18: such an access has no target, and without one every access is refused. -/
theorem refusedAccessChangesNothing : Obligations.RefusedAccessChangesNothing := by
  intro acc d s hrefused
  have hnone : target acc = none := (target_eq_none_iff acc).mpr hrefused
  simp [busRead, busWriteReply, busWrite, hnone]

end Sys2Proof.Proofs.WindowMap

/-! Proofs: what a host access reads, stores and loses (spec/20_memory.md R85 to R93). -/
namespace Sys2Proof.Proofs.HostAccess

open Sys2Proof Sys2Proof.Machine
open Sys2Proof.Proofs.HostWrite

/-! ### Reads -/

/-- No word of the window shows anything of KEY (R90). -/
theorem readReg_key (r : WinReg) (k : BitVec 256) (s : State) : readReg r { s with key := k } = readReg r s := by
  cases r with
  | block v j => cases v <;> rfl
  | _ => rfl

theorem readReg_agenda (r : WinReg) (rest : List Event) (s : State) :
    readReg r { s with agenda := rest } = readReg r s := by
  cases r with
  | block v j => cases v <;> rfl
  | _ => rfl

/-- An access of any form reads the same in two states whose windows show the same (R86). -/
theorem busRead_congr {s u : State} (h : ∀ r, readReg r u = readReg r s) (acc : Access) :
    busRead acc u = busRead acc s := by
  unfold busRead
  cases target acc with
  | none => rfl
  | some r => simp only [h]

/-- Settles O25: a KEY word shows 0, and the other words show other registers. -/
theorem keyNeverReadable : Obligations.KeyNeverReadable :=
  ⟨fun k s => busRead_access (.key k) s, fun acc s k => busRead_congr (fun r => readReg_key r k s) acc⟩

/-! ### One step of the host -/

theorem step_of_agenda_cons {s : State} {e : Event} {rest : List Event} (h : s.agenda = e :: rest) :
    step s = perform e { s with agenda := rest } := by
  simp [step, h]

theorem step_of_agenda_nil {s : State} (h : s.agenda = []) : step s = completion s := by
  simp [step, h]

theorem completion_of_idle {s : State} (h : s.inFlight = none) : completion s = .next s := by
  simp [completion, h]

/-- Settles O7: the event at the head of the agenda is performed, and no access takes notice of the rest of it. -/
theorem stepPerformsHostEvents : Obligations.StepPerformsHostEvents := by
  intro s rest
  refine ⟨fun acc h => ?read, fun acc d h => ?write, fun h => ?reset, fun hidle h => ?complete,
    fun hidle h => ?exhausted⟩
  case read => rw [step_of_agenda_cons h, perform, hostRead, busRead_congr (readReg_agenda · rest s)]
  case write => rw [step_of_agenda_cons h, perform, hostWrite, busWrite_agenda]
  case reset => rw [step_of_agenda_cons h, perform, resetCore]
  case complete => exact (step_of_agenda_cons h).trans (completion_of_idle hidle)
  case exhausted => rw [step_of_agenda_nil h, completion_of_idle hidle]

/-! ### Lost writes -/

/-- The response of a write to a mapped word, also where the write is lost (R87, R89, R92, R93). -/
theorem busWriteReply_access (r : WinReg) : busWriteReply r.access = { data := 0#32, resp := .okay } := by
  simp [busWriteReply, target_access]

/-- With BUSY = 1 a write of any form clears W1C bits of STATUS, is lost, or is refused (R38, R88, R92). -/
theorem busWrite_cases_of_busy (acc : Access) (d : Word) {s : State} (hb : busy s = true) :
    (target acc = some .status ∧ busWrite acc d s = writeStatus d s) ∨
    busWrite acc d s = { s with werr := true } ∨ busWrite acc d s = s := by
  obtain ⟨r, htarget, hw⟩ | ⟨-, hw⟩ := busWrite_cases acc d s
  · by_cases hr : r = .status
    · subst hr
      exact .inl ⟨htarget, hw⟩
    · exact .inr (.inl (hw.trans (writeReg_of_busy d hr hb)))
  · exact .inr (.inr hw)

/-- Settles O10: only a write to STATUS touches DONE and CTR_WRAP, and it can only clear them. -/
theorem inFlightFreezesRegisters : Obligations.InFlightFreezesRegisters := by
  intro s acc d hfly
  have hb : busy s = true := (busy_eq_true_iff s).mpr hfly
  have hclear : ∀ flag clr : Bool, (flag && !clr) = true → flag = true := by decide
  refine ⟨?_, fun hstatus => ?_, fun r hr => ⟨?_, busWriteReply_access r⟩⟩
  · obtain ⟨-, hw⟩ | hw | hw := busWrite_cases_of_busy acc d hb
    · exact ⟨_, _, _, hw, hclear _ _, hclear _ _⟩
    · exact ⟨s.done, s.ctrWrap, true, hw, id, id⟩
    · exact ⟨s.done, s.ctrWrap, s.werr, hw, id, id⟩
  · obtain ⟨htarget, -⟩ | hw | hw := busWrite_cases_of_busy acc d hb
    · exact absurd htarget hstatus
    · rw [hw]
      exact ⟨rfl, rfl⟩
    · rw [hw]
      exact ⟨rfl, rfl⟩
  · rw [busWrite_access, writeReg_of_busy d hr hb]

/-- A write to a word that the flow locks is lost (R93). -/
theorem busWrite_of_locked {r : WinReg} (d : Word) {s : State} (hidle : s.inFlight = none) (h : locked r s = true) :
    busWrite r.access d s = { s with werr := true } ∧ (busWriteReply r.access).resp = .okay := by
  rw [busWrite_access, busWriteReply_access]
  exact ⟨writeReg_of_locked d ((busy_eq_false_iff s).mpr hidle) h, rfl⟩

/-- A word that a host write stores to in the state `s`: BUSY = 0, and the word is writable and not locked (R87). -/
structure Stores (r : WinReg) (s : State) : Prop where
  idle : s.inFlight = none
  notStatus : r ≠ .status
  notCmd : r ≠ .cmd
  writable : r.readOnly = false
  unlocked : locked r s = false

/-- Part (6) of R87. -/
theorem Stores.busWrite {r : WinReg} {s : State} (h : Stores r s) (d : Word) :
    busWrite r.access d s = storeReg r d s := by
  rw [busWrite_access]
  exact writeReg_of_unlocked d h.notStatus h.notCmd ((busy_eq_false_iff s).mpr h.idle) h.writable h.unlocked

/-- DIN, A and B are stored to in every flow (R93). -/
theorem stores_of_unlockable {v : BlockReg} {s : State} (hidle : s.inFlight = none) (hv : v = .din ∨ v = .a ∨ v = .b)
    (k : Fin 4) : Stores (.block v k) s := by
  obtain rfl | rfl | rfl := hv <;>
    exact ⟨hidle, nofun, nofun, rfl, by simp [locked, WinReg.sealLocked, WinReg.ghashLocked]⟩

/-- Settles O23: the locked words are those R93 names for the flow, and DIN, A and B are among none of them. -/
theorem flowLocks : Obligations.FlowLocks := by
  intro d s hidle
  refine ⟨fun hseal r hr => ?_, fun hghash k => ?_, fun k => ⟨?_, ?_, ?_⟩⟩
  · rw [← exists_or] at hr
    exact busWrite_of_locked d hidle ((locked_iff r s).mpr (.inl ⟨hseal, hr⟩))
  · exact busWrite_of_locked d hidle ((locked_iff _ s).mpr (.inr ⟨hghash, k, rfl⟩))
  · exact (stores_of_unlockable hidle (.inl rfl) k).busWrite d
  · exact (stores_of_unlockable hidle (.inr (.inl rfl)) k).busWrite d
  · exact (stores_of_unlockable hidle (.inr (.inr rfl)) k).busWrite d

end Sys2Proof.Proofs.HostAccess

/-! Proofs: the words of the wide registers, written and read back (spec/20_memory.md R85, R87, R95; spec/30_encoding.md
R133, R134). -/
namespace Sys2Proof.Proofs.WideRegisters

open Sys2Proof Sys2Proof.Machine
open Sys2Proof.Proofs.HostWrite Sys2Proof.Proofs.HostAccess

/-- Byte `i` of KEY after its word `k` has been replaced: the word holds bytes `4 * k` to `4 * k + 3`, the first at the
top (R85). -/
theorem keyByte_setWordAt (key : BitVec 256) (k : Fin 8) (d : Word) (i : Fin 32) :
    keyByte (setWordAt key k.val d) i.val =
      if i.val / 4 = k.val then d.extractLsb' (24 - 8 * (i.val % 4)) 8 else keyByte key i.val := by
  apply BitVec.eq_of_getLsbD_eq
  intro j hj
  rw [keyByte, BitVec.getLsbD_extractLsb', setWordAt_getLsbD key k.val d (by omega) _ (by omega)]
  by_cases hword : i.val / 4 = k.val
  · rw [if_pos (by omega), if_pos hword, BitVec.getLsbD_extractLsb',
      show 248 - 8 * i.val + j - (256 - 32 * (k.val + 1)) = 24 - 8 * (i.val % 4) + j by omega]
  · rw [if_neg (by omega), if_neg hword, keyByte, BitVec.getLsbD_extractLsb']

/-- KEY outside a seal flow is stored to (R93). -/
theorem stores_key {s : State} (hidle : s.inFlight = none) (haad : s.seq ≠ .slAad) (htext : s.seq ≠ .slText)
    (k : Fin 8) : Stores (.key k) s :=
  ⟨hidle, nofun, nofun, rfl, Bool.eq_false_iff.mpr fun h => by simp [locked_iff, haad, htext] at h⟩

/-- The word of a 128-bit register by its bits (R85). -/
theorem wordAt_block (v : Block) (k : Fin 4) : wordAt v k.val = v.extractLsb' (96 - 32 * k.val) 32 := by
  rw [wordAt, show 128 - 32 * (k.val + 1) = 96 - 32 * k.val by omega]

/-- The word of NONCE by its bits (R85). -/
theorem wordAt_nonce (v : BitVec 96) (k : Fin 3) : wordAt v k.val = v.extractLsb' (64 - 32 * k.val) 32 := by
  rw [wordAt, show 96 - 32 * (k.val + 1) = 64 - 32 * k.val by omega]

/-- Settles O21: the words by their bits, and KEY, which shows none, by the bytes a write replaces. -/
theorem wideRegisterWords : Obligations.WideRegisterWords := by
  refine ⟨busRead_access, fun s => ⟨rfl, rfl, rfl⟩, fun k s => ?_, fun k s => wordAt_nonce s.nonce k,
    fun s => ⟨rfl, rfl, rfl, rfl⟩, ?_⟩
  · have hword (r : BlockReg) : readReg (.block r k) s = (readBlock r s).extractLsb' (96 - 32 * k.val) 32 :=
      wordAt_block _ k
    exact ⟨hword .din, hword .dout, hword .ctr, hword .j0, hword .h, hword .x, hword .tag, hword .a, hword .b, hword .z⟩
  · rintro k d s t hidle haad htext rfl
    rw [(stores_key hidle haad htext k).busWrite d]
    exact ⟨rfl, keyByte_setWordAt s.key k d⟩

/-! ### A 128-bit register replaced -/

/-- The 128-bit registers that the host may write (R33). -/
def HostWritable (v : BlockReg) : Prop := v = .din ∨ v = .ctr ∨ v = .h ∨ v = .a ∨ v = .b

/-- The words of those registers are the writable ones (R89). -/
theorem readOnly_block_eq_false_iff (v : BlockReg) (k : Fin 4) :
    (WinReg.block v k).readOnly = false ↔ HostWritable v := by
  cases v <;> simp [WinReg.readOnly, HostWritable]

theorem readBlock_putBlock_same {v : BlockReg} (hv : HostWritable v) (w : Block) (s : State) :
    readBlock v (putBlock v w s) = w := by
  obtain rfl | rfl | rfl | rfl | rfl := hv <;> rfl

theorem readBlock_putBlock_ne {v v' : BlockReg} (h : v' ≠ v) (w : Block) (s : State) :
    readBlock v' (putBlock v w s) = readBlock v' s := by
  cases v with
  | din => cases v' with | din => exact absurd rfl h | _ => rfl
  | ctr => cases v' with | ctr => exact absurd rfl h | _ => rfl
  | h => cases v' with | h => exact absurd rfl h | _ => rfl
  | a => cases v' with | a => exact absurd rfl h | _ => rfl
  | b => cases v' with | b => exact absurd rfl h | _ => rfl
  | _ => rfl

@[simp] theorem putBlock_putBlock (v : BlockReg) (w w' : Block) (s : State) :
    putBlock v w (putBlock v w' s) = putBlock v w s := by
  cases v <;> rfl

@[simp] theorem putBlock_readBlock (v : BlockReg) (s : State) : putBlock v (readBlock v s) s = s := by
  cases v <;> rfl

@[simp] theorem putBlock_inFlight (v : BlockReg) (w : Block) (s : State) : (putBlock v w s).inFlight = s.inFlight := by
  cases v <;> rfl

@[simp] theorem putBlock_seq (v : BlockReg) (w : Block) (s : State) : (putBlock v w s).seq = s.seq := by
  cases v <;> rfl

/-- The words that belong to no 128-bit register do not show one (R95). -/
theorem readReg_putBlock {r : WinReg} (h : ∀ v k, r ≠ .block v k) (v : BlockReg) (w : Block) (s : State) :
    readReg r (putBlock v w s) = readReg r s := by
  cases r with
  | block v' k => exact absurd rfl (h v' k)
  | _ => cases v <;> rfl

/-! ### A word written reads back -/

/-- A store shows in no other word (R95). -/
theorem readReg_storeReg_ne {r r' : WinReg} {s : State} (h : Stores r s) (hne : r' ≠ r) (d : Word) :
    readReg r' (storeReg r d s) = readReg r' s := by
  cases r with
  | ctrl =>
    cases r' with
    | ctrl => exact absurd rfl hne
    | block v j => cases v <;> rfl
    | _ => rfl
  | key k => exact readReg_key r' _ s
  | nonce k =>
    cases r' with
    | nonce j =>
      have hjk : j.val ≠ k.val := fun hjk => hne (congrArg WinReg.nonce (Fin.ext hjk))
      exact wordAt_setWordAt_ne s.nonce j.val k.val d (by omega) (by omega) hjk
    | block v j => cases v <;> rfl
    | _ => rfl
  | block v k =>
    have hv : HostWritable v := (readOnly_block_eq_false_iff v k).mp h.writable
    cases r' with
    | block v' j =>
      simp only [readReg, storeReg]
      by_cases hvv : v' = v
      · subst hvv
        have hjk : j.val ≠ k.val := fun hjk => hne (congrArg (WinReg.block v') (Fin.ext hjk))
        rw [readBlock_putBlock_same hv, wordAt_setWordAt_ne _ j.val k.val d (by omega) (by omega) hjk]
      · rw [readBlock_putBlock_ne hvv]
    | _ => exact readReg_putBlock (by simp) v _ s
  | _ => rfl

/-- What a word stored with `d` reads as: CTRL without its reserved bits, KEY as 0 (R34, R87, R90). -/
def readBack (r : WinReg) (d : Word) : Word :=
  match r with
  | .ctrl => d &&& 0x00031F3F#32
  | .key _ => 0#32
  | _ => d

theorem readReg_storeReg_same {r : WinReg} {s : State} (h : Stores r s) (d : Word) :
    readReg r (storeReg r d s) = readBack r d := by
  cases r with
  | ctrl => exact StatusControl.ctrlWord_ctrlOfWord d
  | key k => rfl
  | nonce k => exact wordAt_setWordAt_same s.nonce k.val d (by omega)
  | block v k =>
    have hv : HostWritable v := (readOnly_block_eq_false_iff v k).mp h.writable
    simp only [readReg, storeReg, readBack]
    rw [readBlock_putBlock_same hv, wordAt_setWordAt_same _ k.val d (by omega)]
  | status => exact absurd rfl h.notStatus
  | cmd => exact absurd rfl h.notCmd
  | _ => cases h.writable

/-- What a store keeps of the fields that neither the window nor STATUS shows. -/
theorem storeReg_keeps_hidden (r : WinReg) (d : Word) (s : State) :
    ((∀ k, r ≠ .key k) → (storeReg r d s).key = s.key) ∧
    (storeReg r d s).agenda = s.agenda ∧ (storeReg r d s).busLog = s.busLog := by
  cases r with
  | key k => exact ⟨fun h => absurd rfl (h k), rfl, rfl⟩
  | block v k => cases v <;> exact ⟨fun _ => rfl, rfl, rfl⟩
  | _ => exact ⟨fun _ => rfl, rfl, rfl⟩

/-- Settles O22: such a write is a store. -/
theorem writeThenRead : Obligations.WriteThenRead := by
  intro r d s hidle hstatus hcmd hwritable hunlocked
  have hstores : Stores r s := ⟨hidle, hstatus, hcmd, hwritable, hunlocked⟩
  obtain ⟨hkey, hagenda, hbusLog⟩ := storeReg_keeps_hidden r d s
  rw [hstores.busWrite d]
  exact ⟨readReg_storeReg_same hstores d, fun r' hne => readReg_storeReg_ne hstores hne d, hkey,
    (storeReg_keepsStatus r d s).inFlight, hagenda, hbusLog, (storeReg_keepsCommandRegs r d s).portLog⟩

/-! ### A whole register loaded and read -/

/-- A Block is its four words, word 0 first (R85, R134). -/
theorem words_append (v : Block) : wordAt v 0 ++ wordAt v 1 ++ wordAt v 2 ++ wordAt v 3 = v := by
  simp only [wordAt]
  rw [BitVec.extractLsb'_append_extractLsb'_eq_extractLsb' (by rfl),
    BitVec.extractLsb'_append_extractLsb'_eq_extractLsb' (by rfl),
    BitVec.extractLsb'_append_extractLsb'_eq_extractLsb' (by rfl)]
  exact BitVec.extractLsb'_eq_self

/-- Replacing all four words leaves nothing of the old value (R133). -/
theorem setWordAt_all (u v : Block) :
    setWordAt (setWordAt (setWordAt (setWordAt u 0 (wordAt v 0)) 1 (wordAt v 1)) 2 (wordAt v 2)) 3 (wordAt v 3)
      = v := by
  rw [← words_append (setWordAt _ 3 (wordAt v 3))]
  simp [wordAt_setWordAt_same, wordAt_setWordAt_ne, words_append]

/-- Every word of the 128-bit register `v` is stored to in the state `s`. -/
def Loadable (v : BlockReg) (s : State) : Prop := ∀ k, Stores (.block v k) s

/-- A register loaded with BUSY = 0: DIN, A and B in every flow, CTR outside a seal, H in IDLE (R93). -/
theorem loadable {v : BlockReg} {s : State} (hidle : s.inFlight = none)
    (hv : v = .din ∨ v = .a ∨ v = .b ∨ (v = .ctr ∧ s.seq.isSeal = false) ∨ (v = .h ∧ s.seq = .idle)) :
    Loadable v s := by
  intro k
  obtain hv | hv | hv | ⟨rfl, hflow⟩ | ⟨rfl, hflow⟩ := hv
  · exact stores_of_unlockable hidle (.inl hv) k
  · exact stores_of_unlockable hidle (.inr (.inl hv)) k
  · exact stores_of_unlockable hidle (.inr (.inr hv)) k
  · exact ⟨hidle, nofun, nofun, rfl, by simp [locked, hflow, WinReg.ghashLocked]⟩
  · exact ⟨hidle, nofun, nofun, rfl, by simp [locked, hflow, FlowState.isSeal, FlowState.isGhash]⟩

theorem Loadable.hostWritable {v : BlockReg} {s : State} (h : Loadable v s) : HostWritable v :=
  (readOnly_block_eq_false_iff v 0).mp (h 0).writable

/-- A write of one word, after other words of the same register have been written (R133). -/
theorem Loadable.busWrite_putBlock {v : BlockReg} {s : State} (h : Loadable v s) (w : Block) (k : Fin 4) (d : Word) :
    busWrite (WinReg.block v k).access d (putBlock v w s) = putBlock v (setWordAt w k.val d) s := by
  obtain ⟨hidle, hstatus, hcmd, hwritable, hunlocked⟩ := h k
  have hstores : Stores (.block v k) (putBlock v w s) :=
    ⟨by rw [putBlock_inFlight, hidle], hstatus, hcmd, hwritable, by simpa only [locked, putBlock_seq] using hunlocked⟩
  rw [hstores.busWrite, storeReg, readBlock_putBlock_same h.hostWritable, putBlock_putBlock]

/-- WR128 replaces the register and nothing else (R133). -/
theorem Loadable.load128 {v : BlockReg} {s : State} (h : Loadable v s) (w : Block) :
    load128 v w s = putBlock v w s := by
  rw [← putBlock_readBlock v s, Machine.load128]
  simp only [h.busWrite_putBlock]
  rw [putBlock_putBlock]
  exact congrArg (putBlock v · s) (setWordAt_all (readBlock v s) w)

/-- RD128 binds the value of the register (R134). -/
theorem rd128Value_eq_readBlock (v : BlockReg) (s : State) : rd128Value v s = readBlock v s := by
  simp only [rd128Value, busRead_access, readReg]
  exact words_append (readBlock v s)

/-- Settles O26: each of the four writes replaces its word of the register, and the four reads show all of it. -/
theorem load128RoundTrip : Obligations.Load128RoundTrip := by
  intro v w s hidle hv
  have h : Loadable v s := loadable hidle hv
  rw [rd128Value_eq_readBlock, h.load128]
  exact ⟨rfl, readBlock_putBlock_same h.hostWritable w s⟩

end Sys2Proof.Proofs.WideRegisters

/-! Proofs: what a seal fixes (spec/20_memory.md R93; spec/44_seal.md R255). -/
namespace Sys2Proof.Proofs.SealFrame

open Sys2Proof Sys2Proof.Machine
open Sys2Proof.Proofs.HostWrite Sys2Proof.Proofs.Commands

/-- A command that passes its checks in a seal flow and stays in one writes neither J0 nor H: those that write them are
refused in a seal or end it (R162, R255 to R258). -/
theorem ownWrites_keeps_j0_h {i : Instr} {s : State} (hp : Passes i s) (hseal : s.seq.isSeal = true)
    (hstay : (ownWrites i s).seq.isSeal = true) : (ownWrites i s).j0 = s.j0 ∧ (ownWrites i s).h = s.h := by
  cases i with
  | hDerive => rw [show s.seq = .idle from hp.seq] at hseal; cases hseal
  | sealInit => exact absurd ((isSeal_iff _).mp hseal) (not_or.mpr hp.seq)
  | sealFinal => cases hstay
  | clear => cases hstay
  | _ => exact ⟨rfl, rfl⟩

/-- A completion within a seal flow is a success, and keeps what the seal fixed (R129, R160). -/
theorem runWord_keeps_in_seal {w : Word} {s t : State} (hseal : s.seq.isSeal = true) (hrun : runWord w s = .next t)
    (hstay : t.seq.isSeal = true) :
    t.ctrl = s.ctrl ∧ t.key = s.key ∧ t.nonce = s.nonce ∧ t.j0 = s.j0 ∧ t.h = s.h := by
  obtain ⟨e, -, rfl⟩ | ⟨i, u, -, hexec, rfl, hkeep⟩ := runWord_cases hrun
  · rw [errState_not_seal] at hstay
    cases hstay
  obtain ⟨e, -, herr⟩ | ⟨hp, hown⟩ := exec_next_cases hexec
  · rw [herr, errState_not_seal] at hstay
    cases hstay
  have hseq : (ownWrites i s).seq = u.seq := (congrArg State.seq hown).symm
  obtain ⟨hj0, hh⟩ := ownWrites_keeps_j0_h hp hseal (hseq ▸ hstay)
  exact ⟨hkeep.ctrl, hkeep.key, hkeep.nonce, (congrArg State.j0 hown).trans hj0, (congrArg State.h hown).trans hh⟩

/-- Settles O52, by the events of R97: reads keep everything, the lock holds off the writes, and a reset leaves no
seal. -/
theorem sealFixesKeyNonceSubkey : Obligations.SealFixesKeyNonceSubkey := by
  intro s t hseal hstep hstay
  obtain ⟨-, rfl⟩ | ⟨w, -, -, hrun⟩ | ⟨acc, -, rfl⟩ | ⟨acc, d, -, rfl⟩ | ⟨-, rfl⟩ := step_cases hstep
  · exact ⟨rfl, rfl, rfl, rfl, rfl⟩
  · exact runWord_keeps_in_seal (s := { s with agenda := s.agenda.tail }) hseal hrun hstay
  · exact ⟨rfl, rfl, rfl, rfl, rfl⟩
  · have hadvanced : ({ s with agenda := s.agenda.tail } : State).seq.isSeal = true := hseal
    obtain ⟨hctrl, hkey, hnonce, -, hh⟩ := busWrite_keepsSealLocked acc d hadvanced
    exact ⟨hctrl, hkey, hnonce, (busWrite_keepsCommandRegs acc d _).j0, hh⟩
  · cases hstay

end Sys2Proof.Proofs.SealFrame

/-! Proofs: command words by their fields, and the decoder and the encoder as inverses (spec/30_encoding.md R120 to
R130). -/
namespace Sys2Proof.Proofs.Encoding

open Sys2Proof Sys2Proof.Machine

/-! ### The opcode table -/

/-- The table finds each command at its own opcode (R124). -/
theorem lookup_opcode (i : Instr) : lookup i.opcode i.lenBits = some i := by
  cases i <;> rfl

/-- What a part of the table that is asked for `opc` with the block length `n` answers: nothing, or a command at that
opcode that takes no block length or has `n` as its own (R124). -/
def Sound (opc : BitVec 8) (n : BitVec 5) (answer : Option Instr) : Prop :=
  ∀ i, answer = some i → opc = i.opcode ∧ (i.length? = none ∨ i.length? = some n)

theorem Sound.nil (opc : BitVec 8) (n : BitVec 5) : Sound opc n none :=
  fun _ h => nomatch h

/-- One row in front of the rest of the table. -/
theorem Sound.row {opc c : BitVec 8} {n : BitVec 5} {j : Instr} {rest : Option Instr} (hc : c = j.opcode)
    (hj : j.length? = none ∨ j.length? = some n) (hrest : Sound opc n rest) :
    Sound opc n (if opc = c then some j else rest) := by
  intro i h
  split at h
  case isTrue hopc =>
    obtain rfl := Option.some.inj h
    exact ⟨hopc.trans hc, hj⟩
  case isFalse => exact hrest i h

/-- All sixteen rows. -/
theorem lookup_sound (opc : BitVec 8) (n : BitVec 5) : Sound opc n (lookup opc n) := by
  unfold lookup
  iterate 16 refine .row rfl (by simp [Instr.length?]) ?_
  exact .nil opc n

/-! ### A word and the command it spells -/

/-- The fields of the word are those of the command: RSV 0, its opcode, and its block length or 0 (R120 to R123). -/
structure Spells (w : Word) (i : Instr) : Prop where
  rsv : rsvField w = 0#19
  opc : opcField w = i.opcode
  len : lenField w = i.lenBits

/-- The laws about the sixteen words, as one. -/
theorem encodeShape : ∀ i, Laws.EncodeShape.Statement i
  | .nop => Laws.EncodeShape.nop
  | .gfAdd => Laws.EncodeShape.gfAdd
  | .gfMul => Laws.EncodeShape.gfMul
  | .ctrInit => Laws.EncodeShape.ctrInit
  | .ctrInc => Laws.EncodeShape.ctrInc
  | .ksXor n => Laws.EncodeShape.ksXor n
  | .hDerive => Laws.EncodeShape.hDerive
  | .ghashInit => Laws.EncodeShape.ghashInit
  | .ghashAad n => Laws.EncodeShape.ghashAad n
  | .ghashText n => Laws.EncodeShape.ghashText n
  | .ghashFinal => Laws.EncodeShape.ghashFinal
  | .sealInit => Laws.EncodeShape.sealInit
  | .sealAad n => Laws.EncodeShape.sealAad n
  | .sealPt n => Laws.EncodeShape.sealPt n
  | .sealFinal => Laws.EncodeShape.sealFinal
  | .clear => Laws.EncodeShape.clear

theorem encode_spells (i : Instr) : Spells (encode i) i := by
  obtain ⟨hrsv, hlen, hopc⟩ := encodeShape i
  exact ⟨hrsv, hopc, hlen⟩

/-- The three fields make up the whole word (R120). -/
theorem fields_append (w : Word) : rsvField w ++ lenField w ++ opcField w = w := by
  rw [rsvField, lenField, opcField, BitVec.extractLsb'_append_extractLsb'_eq_extractLsb' (by rfl),
    BitVec.extractLsb'_append_extractLsb'_eq_extractLsb' (by rfl), BitVec.extractLsb'_eq_self]

/-- A command has one word. -/
theorem Spells.unique {v w : Word} {i : Instr} (hv : Spells v i) (hw : Spells w i) : v = w := by
  rw [← fields_append v, ← fields_append w, hv.rsv, hv.opc, hv.len, hw.rsv, hw.opc, hw.len]

/-- Such a word passes the checks of R127 up to that of the block length, which is the command's. -/
theorem Spells.decode_eq {w : Word} {i : Instr} (h : Spells w i) :
    decode w = if i.wellFormed then .command i else .badLen i := by
  have hlook : lookup (opcField w) (lenField w) = some i := by rw [h.opc, h.len, lookup_opcode]
  rw [decode, hlook]
  cases hn : i.length? with
  | none =>
    have hlen : lenField w = 0#5 := by rw [h.len, Instr.lenBits, hn]
    simp [h.rsv, hn, hlen, Instr.wellFormed]
  | some n => simp [h.rsv, hn, Instr.wellFormed]

/-- Decoding names a command only for a word that spells it: the checks of R127 in their order. -/
theorem spells_of_decode {w : Word} {i : Instr} (h : (decode w).instr? = some i) : Spells w i := by
  unfold decode at h
  split at h
  case isTrue => cases h
  case isFalse hrsv =>
    split at h
    case h_1 => cases h
    case h_2 j hlook =>
      obtain ⟨hopc, hnone | hsome⟩ := lookup_sound _ _ j hlook
      · simp only [hnone] at h
        split at h
        case isTrue => cases h
        case isFalse hlen =>
          cases h
          exact ⟨not_not.mp hrsv, hopc, by rw [Instr.lenBits, hnone]; exact not_not.mp hlen⟩
      · have hij : j = i := by
          simp only [hsome] at h
          split at h <;> exact Option.some.inj h
        subst hij
        exact ⟨not_not.mp hrsv, hopc, by rw [Instr.lenBits, hsome]⟩

/-! ### The statements -/

/-- Settles O1: the command's own word spells it, so only the block length is left to check. -/
theorem decodeOfEncode : Obligations.DecodeOfEncode := by
  intro i hwell
  rw [(encode_spells i).decode_eq, if_pos hwell]

/-- Settles O2: the word spells the command, as the command's own word does; the block length tells which result it
is. -/
theorem encodeOfDecode : Obligations.EncodeOfDecode := by
  intro w i h
  have hspells : Spells w i := spells_of_decode h
  refine ⟨(encode_spells i).unique hspells, ?_⟩
  rw [hspells.decode_eq]
  cases i.wellFormed <;> simp

/-- Settles O5: closed words, decoded by evaluation. -/
theorem sampleWordsDecode : Obligations.SampleWordsDecode := by
  unfold Obligations.SampleWordsDecode
  decide

end Sys2Proof.Proofs.Encoding

/-! Proofs: the frame of every completion (spec/30_encoding.md R129; spec/40_command_cycle.md R155, R159, R160). -/
namespace Sys2Proof.Proofs.CompletionFrame

open Sys2Proof Sys2Proof.Machine

/-- An error writes nothing of the host's, with or without ABORT (R159, R160). -/
theorem errState_keepsHostState (e : ErrCode) (s : State) : KeepsHostState s (errState e s) := by
  obtain ⟨hctrl, hkey, hnonce, hdin, ha, hb, -, hcmd, -, hwerr, hagenda, hbus, -⟩ := errState_keeps e s
  exact ⟨hctrl, hwerr, hcmd, hkey, hnonce, hdin, ha, hb, hagenda, hbus⟩

/-- Part (3) of a successful completion writes only STATUS (R155). -/
theorem okState_keepsHostState {s u : State} (h : KeepsHostState s u) : KeepsHostState s (okState u) := by
  obtain ⟨hctrl, hwerr, hcmd, hkey, hnonce, hdin, ha, hb, hagenda, hbus⟩ := h
  exact ⟨hctrl, hwerr, hcmd, hkey, hnonce, hdin, ha, hb, hagenda, hbus⟩

/-- The completion of any word, legal or not, keeps what no command writes (R129, R155). -/
theorem runWord_keepsHostState {w : Word} {s t : State} (h : runWord w s = .next t) : KeepsHostState s t := by
  obtain ⟨e, -, rfl⟩ | ⟨i, u, -, -, rfl, hkeep⟩ := runWord_cases h
  · exact errState_keepsHostState e s
  · exact okState_keepsHostState hkeep

/-- Settles O49. -/
theorem commandsKeepHostRegisters : Obligations.CommandsKeepHostRegisters := by
  intro w s t hrun
  obtain ⟨hctrl, hwerr, hcmd, hkey, hnonce, hdin, ha, hb, hagenda, hbus⟩ := runWord_keepsHostState hrun
  exact ⟨hctrl, hkey, hnonce, hdin, ha, hb, hcmd, hwerr, hagenda, hbus⟩

end Sys2Proof.Proofs.CompletionFrame

/-! Proofs: the command cycle (spec/40_command_cycle.md R151 to R162): acceptance, completion, errors and the table of
sequences. -/
namespace Sys2Proof.Proofs.CommandCycle

open Sys2Proof Sys2Proof.Machine
open Sys2Proof.Proofs.HostWrite Sys2Proof.Proofs.HostAccess Sys2Proof.Proofs.Commands

/-! ### The checks of a command in their order -/

/-- The codes of the checks behind that of the sequence (R304 to R307). -/
def operandCodes : List ErrCode := [.invalidKeyLength, .unsupportedNonceLength, .messageTooLong, .lengthOverflow]

/-- The outcome of a command whose checks stand in the order of R310: the block length, the sequence, the operands; when
all pass, the command's own writes. -/
inductive CheckedInOrder (i : Instr) (s : State) : Host.Outcome State Fault Refusal → Prop where
  | length (hlen : i.wellFormed = false) : CheckedInOrder i s (raiseErr .badBlockLength s)
  | sequence (hlen : i.wellFormed = true) (hseq : ¬ seqLegal i s) : CheckedInOrder i s (raiseErr .sequence s)
  | operands {e : ErrCode} (hlen : i.wellFormed = true) (hseq : seqLegal i s) (he : e ∈ operandCodes)
      (hop : ¬ operandsLegal i s) : CheckedInOrder i s (raiseErr e s)
  | success (hp : Passes i s) : CheckedInOrder i s (succeed (ownWrites i s))

namespace CheckedInOrder

variable {i : Instr} {s : State} {o : Host.Outcome State Fault Refusal}

/-- The length check in front of the others (R302). -/
theorem lengthCheck {n : BitVec 5} (hn : i.wellFormed = lenLegal n)
    (hrest : i.wellFormed = true → CheckedInOrder i s o) :
    CheckedInOrder i s (if badBlockLength n then raiseErr .badBlockLength s else o) :=
  iteInduction (fun hbad => .length (by simpa [badBlockLength_eq_not_lenLegal, hn] using hbad))
    fun hok => hrest (hn.trans (lenLegal_of_check hok))

/-- The sequence check, made of a command with a legal block length (R303). -/
theorem sequenceCheck {c : Prop} [Decidable c] (hlen : i.wellFormed = true) (hc : seqLegal i s ↔ ¬ c)
    (hrest : seqLegal i s → CheckedInOrder i s o) :
    CheckedInOrder i s (if c then raiseErr .sequence s else o) :=
  iteInduction (fun hbad => .sequence hlen fun hseq => hc.mp hseq hbad) fun hok => hrest (hc.mpr hok)

/-- A check of an operand, made of a command that is legal at this point of its flow (R304 to R307). -/
theorem operandCheck {c : Prop} [Decidable c] {e : ErrCode} (hlen : i.wellFormed = true) (hseq : seqLegal i s)
    (he : e ∈ operandCodes) (hc : operandsLegal i s → ¬ c) (hrest : ¬ c → CheckedInOrder i s o) :
    CheckedInOrder i s (if c then raiseErr e s else o) :=
  iteInduction (fun hbad => .operands hlen hseq he fun hop => hc hop hbad) hrest

end CheckedInOrder

/-- Outside the seal phases (R93). -/
theorem isSeal_eq_false_iff (q : FlowState) : q.isSeal = false ↔ q ≠ .slAad ∧ q ≠ .slText := by
  rw [Bool.eq_false_iff, ne_eq, isSeal_iff, not_or]

/-- A check written with a negation, in the terms of what it asks for. -/
theorem iff_not_check {b : Bool} {p : Prop} (h : b = true ↔ p) : p ↔ ¬ (!b) = true := by
  simp [← h]

/-- Each meaning makes its checks in the order of R310. -/
theorem exec_checkedInOrder (i : Instr) (s : State) : CheckedInOrder i s (exec i s) := by
  have hout : (s.seq ≠ .slAad ∧ s.seq ≠ .slText) ↔ ¬ s.seq.isSeal = true := by
    rw [Bool.not_eq_true, isSeal_eq_false_iff]
  cases i with
  | nop => exact .success ⟨rfl, trivial, trivial⟩
  | gfAdd => exact .success ⟨rfl, trivial, trivial⟩
  | gfMul => exact .success ⟨rfl, trivial, trivial⟩
  | clear => exact .success ⟨rfl, trivial, trivial⟩
  | ctrInit =>
    exact .sequenceCheck rfl hout fun hseq =>
      .operandCheck rfl hseq (by decide) (iff_not_check Iff.rfl).mp fun hnonce =>
      .success ⟨rfl, hseq, passed_of_check hnonce⟩
  | ctrInc => exact .sequenceCheck rfl hout fun hseq => .success ⟨rfl, hseq, trivial⟩
  | ksXor n =>
    exact .lengthCheck rfl fun hlen => .sequenceCheck hlen hout fun hseq =>
      .operandCheck hlen hseq (by decide) (iff_not_check Iff.rfl).mp fun hkey =>
      .success ⟨hlen, hseq, passed_of_check hkey⟩
  | hDerive =>
    exact .sequenceCheck rfl not_not.symm fun hseq =>
      .operandCheck rfl hseq (by decide) (iff_not_check Iff.rfl).mp fun hkey =>
      .success ⟨rfl, hseq, passed_of_check hkey⟩
  | ghashInit => exact .sequenceCheck rfl hout fun hseq => .success ⟨rfl, hseq, trivial⟩
  | ghashAad n =>
    exact .lengthCheck rfl fun hlen => .sequenceCheck hlen (iff_not_check (aadOK_iff _ _)) fun hseq =>
      .operandCheck hlen hseq (by decide) Bool.eq_false_iff.mp fun hover =>
      .success ⟨hlen, hseq, Bool.eq_false_iff.mpr hover⟩
  | ghashText n =>
    exact .lengthCheck rfl fun hlen => .sequenceCheck hlen (iff_not_check (textOK_iff _ _ _)) fun hseq =>
      .operandCheck hlen hseq (by decide) Bool.eq_false_iff.mp fun hover =>
      .success ⟨hlen, hseq, Bool.eq_false_iff.mpr hover⟩
  | ghashFinal =>
    exact .sequenceCheck rfl (iff_not_check (isGhash_iff _)) fun hseq => .success ⟨rfl, hseq, trivial⟩
  | sealInit =>
    exact .sequenceCheck rfl hout fun hseq =>
      .operandCheck rfl hseq (by decide) (fun hop => (iff_not_check Iff.rfl).mp hop.1) fun hkey =>
      .operandCheck rfl hseq (by decide) (fun hop => (iff_not_check Iff.rfl).mp hop.2) fun hnonce =>
      .success ⟨rfl, hseq, passed_of_check hkey, passed_of_check hnonce⟩
  | sealAad n =>
    exact .lengthCheck rfl fun hlen => .sequenceCheck hlen (iff_not_check (aadOK_iff _ _)) fun hseq =>
      .operandCheck hlen hseq (by decide) Bool.eq_false_iff.mp fun hover =>
      .success ⟨hlen, hseq, Bool.eq_false_iff.mpr hover⟩
  | sealPt n =>
    exact .lengthCheck rfl fun hlen => .sequenceCheck hlen (iff_not_check (textOK_iff _ _ _)) fun hseq =>
      .operandCheck hlen hseq (by decide) (mt beq_iff_eq.mp) fun hmax => .success ⟨hlen, hseq, mt beq_iff_eq.mpr hmax⟩
  | sealFinal =>
    exact .sequenceCheck rfl (iff_not_check (isSeal_iff _)) fun hseq => .success ⟨rfl, hseq, trivial⟩

/-- A command that passes every check completes with its own writes (R155). -/
theorem exec_of_passes {i : Instr} {s : State} (hp : Passes i s) : exec i s = .next (okState (ownWrites i s)) := by
  have hchecked := exec_checkedInOrder i s
  generalize exec i s = o at hchecked ⊢
  cases hchecked with
  | length hlen => exact absurd (hp.len.symm.trans hlen) (by decide)
  | sequence hlen hseq => exact absurd hp.seq hseq
  | operands hlen hseq he hop => exact absurd hp.operands hop
  | success => rfl

/-- Settles O37: NOP and CLEAR have no check to pass. -/
theorem housekeepingResults : Obligations.HousekeepingResults :=
  fun _ => ⟨exec_of_passes ⟨rfl, trivial, trivial⟩, exec_of_passes ⟨rfl, trivial, trivial⟩⟩

/-! ### The table of sequences -/

/-- The writes of a command that is legal at this point of its flow leave SEQ and PARTIAL as the table says (R162). -/
theorem ownWrites_seqAfter {i : Instr} {s : State} (hseq : seqLegal i s) :
    ((ownWrites i s).seq, (ownWrites i s).partialBlk) = seqAfter i s := by
  cases i with
  | ghashAad n =>
    obtain ⟨haad, -⟩ := hseq
    exact congrArg (·, shortBlock n) haad
  | sealAad n =>
    obtain ⟨haad, -⟩ := hseq
    exact congrArg (·, shortBlock n) haad
  | _ => rfl

/-- Settles O14: the sequence check comes first for a well-formed command, and the checks behind it have other codes. -/
theorem sequencingTable : Obligations.SequencingTable := by
  intro i s hwell
  have hchecked := exec_checkedInOrder i s
  generalize exec i s = o at hchecked ⊢
  cases hchecked with
  | length hlen => exact absurd (hwell.symm.trans hlen) (by decide)
  | sequence hlen hseq => exact ⟨_, rfl, iff_of_true hseq (errState_errCode _ _), nofun⟩
  | @operands e hlen hseq he hop =>
    have hcode : e ≠ .sequence := by rintro rfl; exact absurd he (by decide)
    exact ⟨_, rfl, iff_of_false (not_not.mpr hseq) hcode, nofun⟩
  | success hp =>
    exact ⟨_, rfl, iff_of_false (not_not.mpr hp.seq) nofun, fun _ => ⟨hp.seq, ownWrites_seqAfter hp.seq⟩⟩

/-! ### Completion -/

theorem completion_of_inFlight {s : State} {w : Word} (h : s.inFlight = some w) : completion s = runWord w s := by
  simp [completion, h]

/-- A word that names a command completes as that command, whatever its block length (R127, R155). -/
theorem runWord_of_instr {w : Word} {i : Instr} (h : (decode w).instr? = some i) (s : State) :
    runWord w s = exec i s := by
  unfold runWord
  cases hd : decode w with
  | illegal why => rw [hd] at h; cases h
  | command j => rw [hd] at h; cases h; rfl
  | badLen j => rw [hd] at h; cases h; rfl

/-- A word that names no command completes with ILLEGAL_COMMAND (R126, R301). -/
theorem runWord_of_illegal {w : Word} {why : IllegalReason} (h : decode w = .illegal why) (s : State) :
    runWord w s = .next (errState .illegalCommand s) := by
  rw [runWord, h]
  rfl

/-- Part (3) of a completion: it answers a state with BUSY 0 and DONE 1 (R155). -/
def Completes (o : Host.Outcome State Fault Refusal) : Prop :=
  ∃ t, o = .next t ∧ t.inFlight = none ∧ t.done = true

theorem exec_completes (i : Instr) (s : State) : Completes (exec i s) := by
  obtain ⟨e, -, h⟩ | ⟨-, h⟩ := exec_answers i s <;> exact ⟨_, h, rfl, rfl⟩

/-- Every word completes, also one that is no command (R152, R155). -/
theorem runWord_completes (w : Word) (s : State) : Completes (runWord w s) := by
  unfold runWord
  cases decode w with
  | command i => exact exec_completes i s
  | badLen i => exact exec_completes i s
  | illegal why => exact ⟨_, rfl, rfl, rfl⟩

theorem completion_total (s : State) : ∃ t, completion s = .next t := by
  cases h : s.inFlight with
  | none => exact ⟨s, completion_of_idle h⟩
  | some w =>
    obtain ⟨t, ht, -⟩ := runWord_completes w s
    exact ⟨t, (completion_of_inFlight h).trans ht⟩

/-- No event stops the machine (R312). -/
theorem perform_total (e : Event) (s : State) : ∃ t, perform e s = .next t := by
  cases e with
  | complete => exact completion_total s
  | _ => exact ⟨_, rfl⟩

/-- Settles O9: the word in flight completes, and the other events answer as they are defined. -/
theorem acceptedWordCompletes : Obligations.AcceptedWordCompletes := by
  refine ⟨fun s => ?_, fun s w hfly => ?_⟩
  · cases hagenda : s.agenda with
    | nil =>
      rw [step_of_agenda_nil hagenda]
      exact completion_total s
    | cons e rest =>
      rw [step_of_agenda_cons hagenda]
      exact perform_total e _
  · have hdone : Completes (completion s) := completion_of_inFlight hfly ▸ runWord_completes w s
    exact ⟨hdone, fun hagenda => (step_of_agenda_nil hagenda).symm ▸ hdone⟩

/-- Settles O6: the step is the completion of the word in flight, which names the command. -/
theorem stepRunsCommandInFlight : Obligations.StepRunsCommandInFlight := by
  intro s w i hfly hname
  refine ⟨fun rest hagenda => ?_, fun hagenda => ?_⟩
  · calc step s
      _ = completion { s with agenda := rest } := step_of_agenda_cons hagenda
      _ = runWord w { s with agenda := rest } := completion_of_inFlight hfly
      _ = exec i { s with agenda := rest } := runWord_of_instr hname _
  · rw [step_of_agenda_nil hagenda, completion_of_inFlight hfly, runWord_of_instr hname]

/-- Settles O8: the CMD part of R87 accepts the word, and its BUSY part loses it. -/
theorem commandAcceptance : Obligations.CommandAcceptance := by
  intro w s
  refine ⟨fun hidle => ?_, fun hfly => ?_⟩
  · have haccept : busWrite WinReg.cmd.access w s = accept w s := by
      rw [busWrite_access, writeReg_cmd w ((busy_eq_false_iff s).mpr hidle)]
    refine ⟨haccept, fun ⟨why, hillegal⟩ => ⟨errState .illegalCommand (accept w s), ?_, rfl⟩⟩
    rw [haccept, completion_of_inFlight (accept_inFlight w s), runWord_of_illegal hillegal]
  · rw [busWrite_access, writeReg_of_busy w (by decide) ((busy_eq_true_iff s).mpr hfly)]

/-! ### Errors, and the ways out of a seal -/

/-- Settles O11: a completion with ERR is an error's, with or without ABORT as the phase says. -/
theorem failedCommandWritesOnlyStatus : Obligations.FailedCommandWritesOnlyStatus := by
  intro w s t hrun herr
  obtain ⟨e, he, rfl⟩ | ⟨i, u, -, -, rfl, -⟩ := runWord_cases hrun
  · refine ⟨?_, fun haad htext => ?_, fun hseal => ?_⟩
    · rintro (rfl : e = .none)
      exact absurd he (by decide)
    · exact errState_outside_seal e ((isSeal_eq_false_iff _).mpr ⟨haad, htext⟩)
    · exact errState_in_seal e ((isSeal_iff _).mpr hseal)
  · cases herr

/-- Of the commands that pass their checks in a seal flow, only SEAL_FINAL and CLEAR end it (R162). -/
theorem ownWrites_leaves_seal {i : Instr} {s : State} (hp : Passes i s) (hseal : s.seq.isSeal = true)
    (hleave : (ownWrites i s).seq.isSeal = false) : i = .sealFinal ∨ i = .clear := by
  have hstay : ¬ s.seq.isSeal = false := by simp [hseal]
  have houtside : ¬ (s.seq ≠ .slAad ∧ s.seq ≠ .slText) := mt (isSeal_eq_false_iff _).mpr hstay
  have hseq := hp.seq
  cases i with
  | sealFinal => exact .inl rfl
  | clear => exact .inr rfl
  | ghashInit => exact absurd hseq houtside
  | ghashText n => obtain h | ⟨h, -⟩ := hseq <;> exact absurd (congrArg FlowState.isSeal h) hstay
  | ghashFinal => obtain h | h := hseq <;> exact absurd (congrArg FlowState.isSeal h) hstay
  | sealInit => cases hleave
  | sealPt n => cases hleave
  | _ => exact absurd hleave hstay

/-- A completion that ends a seal raises an error or is that of SEAL_FINAL or CLEAR (R160, R162). -/
theorem runWord_leaves_seal {w : Word} {s t : State} (hseal : s.seq.isSeal = true) (hrun : runWord w s = .next t)
    (hleave : t.seq.isSeal = false) :
    t.err = true ∨ decode w = .command .sealFinal ∨ decode w = .command .clear := by
  obtain ⟨e, -, rfl⟩ | ⟨i, u, hdecode, hexec, -, -⟩ := runWord_cases hrun
  · exact .inl (errState_err e s)
  obtain ⟨e, -, rfl⟩ | ⟨hp, rfl⟩ := exec_next_cases hexec
  · exact .inl (errState_err e s)
  obtain rfl | rfl := ownWrites_leaves_seal hp hseal hleave
  · exact .inr (.inl hdecode)
  · exact .inr (.inr hdecode)

/-- Settles O53, by the events of R97: no host access writes SEQ. -/
theorem onlyTheseLeaveASeal : Obligations.OnlyTheseLeaveASeal := by
  intro s t hseal hstep hleave
  have hstay : ¬ s.seq.isSeal = false := by simp [hseal]
  obtain ⟨-, rfl⟩ | ⟨w, hfly, hagenda, hrun⟩ | ⟨acc, -, rfl⟩ | ⟨acc, d, -, rfl⟩ | ⟨hreset, -⟩ := step_cases hstep
  · exact absurd hleave hstay
  · exact .inr ⟨hagenda.imp_right List.head?_eq_some_iff.mp, w, hfly,
      runWord_leaves_seal (s := { s with agenda := s.agenda.tail }) hseal hrun hleave⟩
  · exact absurd hleave hstay
  · have hkeep := (busWrite_keepsCommandRegs acc d { s with agenda := s.agenda.tail }).seq
    exact absurd ((congrArg FlowState.isSeal hkeep).symm.trans hleave) hstay
  · exact .inl (List.head?_eq_some_iff.mp hreset)

end Sys2Proof.Proofs.CommandCycle

/-! Proofs: the field laws (spec/41_gf128.md R180 to R184), carried over from the ring of polynomials modulo the
modulus, and the field commands (R185, R186). -/
namespace Sys2Proof.Proofs.FieldLaws

open Polynomial
open Sys2Proof Sys2Proof.Machine
open Sys2Proof.Proofs.Gf128 Sys2Proof.Proofs.CommandCycle

/-! ### Blocks as representatives -/

/-- Bit `127 - i` is the coefficient of x^i, and there are no others (R13). -/
theorem coeff_blockPoly (v : Block) (i : Nat) :
    (blockPoly v).coeff i = if i < 128 ∧ v.getLsbD (127 - i) then 1 else 0 := by
  have hterm : ∀ j, (if v.getLsbD (128 - 1 - j) then (X : (ZMod 2)[X]) ^ j else 0).coeff i =
      if i = j then (if v.getLsbD (127 - i) then 1 else 0) else 0 := fun j => by
    rw [apply_ite (coeff · i), coeff_X_pow, coeff_zero]
    by_cases hij : i = j <;> simp [hij]
  rw [blockPoly, lowBitsPoly, finsetSum_coeff, Finset.sum_congr rfl fun j _ => hterm j, Finset.sum_ite_eq,
    ite_and]
  simp only [Finset.mem_range]

theorem degree_blockPoly_lt (v : Block) : (blockPoly v).degree < (128 : Nat) := by
  rw [degree_lt_iff_coeff_zero]
  intro i hi
  rw [coeff_blockPoly, if_neg fun ⟨hlt, _⟩ => absurd hlt (by omega)]

theorem blockPoly_injective : Function.Injective blockPoly := by
  intro a b hab
  refine BitVec.eq_of_getLsbD_eq fun i hi => ?_
  have hcoeff := congrArg (coeff · (127 - i)) hab
  simp only [coeff_blockPoly, show 127 - (127 - i) = i by omega, show 127 - i < 128 by omega, true_and] at hcoeff
  revert hcoeff
  cases a.getLsbD i <;> cases b.getLsbD i <;> simp

/-- The modulus is its leading term and the reduction constant (R187). -/
theorem gcmModulus_eq_X_pow_add : gcmModulus = X ^ 128 + blockPoly gfReduction := by
  rw [gcmModulus_eq, blockPoly_gfReduction]
  simp only [add_assoc]

theorem degree_gcmModulus : gcmModulus.degree = (128 : Nat) := by
  have hlow : (blockPoly gfReduction).degree < ((X : (ZMod 2)[X]) ^ 128).degree := by
    rw [degree_X_pow]
    exact degree_blockPoly_lt gfReduction
  rw [gcmModulus_eq_X_pow_add, degree_add_eq_left_of_degree_lt hlow, degree_X_pow]

/-- Two polynomials of a degree below the modulus are equal when they are equal modulo it: their difference is a
multiple of the modulus of a smaller degree. -/
theorem eq_of_mk_eq {R : Type} [CommRing R] [IsDomain R] {g p q : R[X]} (hp : p.degree < g.degree)
    (hq : q.degree < g.degree) (hmk : AdjoinRoot.mk g p = AdjoinRoot.mk g q) : p = q :=
  sub_eq_zero.mp <| eq_zero_of_dvd_of_degree_lt (AdjoinRoot.mk_eq_mk.mp hmk) <|
    (degree_sub_le p q).trans_lt (max_lt hp hq)

/-- The residue class that a Block stands for (R183). -/
noncomputable def residue (v : Block) : AdjoinRoot gcmModulus := AdjoinRoot.mk gcmModulus (blockPoly v)

/-- Each class has at most one Block: the polynomials of Blocks have degrees below the modulus. -/
theorem residue_injective : Function.Injective residue := by
  have hdegree : ∀ v, (blockPoly v).degree < gcmModulus.degree := fun v => by
    rw [degree_gcmModulus]
    exact degree_blockPoly_lt v
  exact fun a b hab => blockPoly_injective (eq_of_mk_eq (hdegree a) (hdegree b) hab)

@[simp] theorem residue_zero : residue 0#128 = 0 := by
  rw [residue, blockPoly_zero, map_zero]

@[simp] theorem residue_gfOne : residue gfOne = 1 := by
  have hbits : (Finset.range 128).filter (fun i => gfOne.getLsbD (128 - 1 - i)) = {0} := by decide
  rw [residue, blockPoly, lowBitsPoly, ← Finset.sum_filter, hbits, Finset.sum_singleton, pow_zero, map_one]

@[simp] theorem residue_gfAdd (a b : Block) : residue (gfAdd a b) = residue a + residue b := by
  rw [residue, gfAdd, blockPoly_xor, map_add, residue, residue]

@[simp] theorem residue_gfMul (a b : Block) : residue (gfMul a b) = residue a * residue b := by
  rw [residue, mk_blockPoly_gfMul, map_mul, residue, residue]

/-! ### The laws -/

/-- Settles O33: the residue classes form a commutative ring. -/
theorem multiplicationLaws : Obligations.MultiplicationLaws := by
  refine ⟨fun a b => ?comm, fun a b c => ?assoc, fun a b c => ?left_distrib, fun a b c => ?right_distrib⟩ <;>
    apply residue_injective
  case comm => simp only [residue_gfMul, mul_comm]
  case assoc => simp only [residue_gfMul, mul_assoc]
  case left_distrib => simp only [residue_gfMul, residue_gfAdd, mul_add]
  case right_distrib => simp only [residue_gfMul, residue_gfAdd, add_mul]

/-- Zero as the left operand (R184). -/
theorem gfMul_zero_left (x : Block) : gfMul 0#128 x = 0#128 :=
  residue_injective (by rw [residue_gfMul, residue_zero, zero_mul])

/-- One as the left operand (R184). -/
theorem gfMul_gfOne_left (x : Block) : gfMul gfOne x = x :=
  residue_injective (by rw [residue_gfMul, residue_gfOne, one_mul])

/-- Settles O31: the equations of R184 for the left operand, and commutativity for the right one. -/
theorem multiplicationEdges : Obligations.MultiplicationEdges := by
  obtain ⟨hcomm, -⟩ := multiplicationLaws
  exact fun x => ⟨gfMul_zero_left x, gfMul_gfOne_left x, (hcomm x _).trans (gfMul_zero_left x),
    (hcomm x _).trans (gfMul_gfOne_left x)⟩

/-- Settles O30: addition is XOR, bit by bit (R180). -/
theorem additionLaws : Obligations.AdditionLaws :=
  ⟨fun _ _ _ => BitVec.getLsbD_xor, BitVec.xor_comm, BitVec.xor_assoc, fun _ => BitVec.xor_self,
    fun _ => ⟨BitVec.xor_zero, BitVec.zero_xor⟩⟩

/-! ### The field commands -/

/-- Settles O38: GF_ADD and GF_MUL have no check to pass. -/
theorem fieldCommandResults : Obligations.FieldCommandResults :=
  fun _ => ⟨exec_of_passes ⟨rfl, trivial, trivial⟩, exec_of_passes ⟨rfl, trivial, trivial⟩⟩

end Sys2Proof.Proofs.FieldLaws

/-! Proofs: the counter block, the mask and the commands of the keystream datapath (spec/42_counter.md R200 to R207). -/
namespace Sys2Proof.Proofs.Counter

open Sys2Proof Sys2Proof.Machine
open Sys2Proof.Proofs.Commands Sys2Proof.Proofs.CommandCycle

/-! ### The counter block -/

/-- Settles O34: the two parts of the incremented block are read back apart, and the wrap is that of its field. -/
theorem counterIncrement : Obligations.CounterIncrement := by
  refine fun v => ⟨?field, BitVec.extractLsb'_append_eq_left, ?wrap⟩
  case field =>
    rw [inc32, BitVec.extractLsb'_append_eq_right, BitVec.toNat_add, BitVec.toNat_ofNat]
  case wrap =>
    rw [inc32, beq_iff_eq, ← BitVec.toNat_inj, BitVec.toNat_ofNat]

/-! ### The mask -/

/-- The kept bytes come first (R202). -/
theorem blockByte_mask (v : Block) {n i : Nat} (hn : n ≤ 16) (hi : i < 16) :
    blockByte (mask v n) i = if i < n then blockByte v i else 0#8 := by
  refine BitVec.eq_of_getLsbD_eq fun j hj => ?_
  rw [blockByte, BitVec.getLsbD_extractLsb', mask_getLsbD v n _ hn (by omega)]
  by_cases hin : i < n
  · rw [if_pos hin, blockByte, BitVec.getLsbD_extractLsb', decide_eq_true (by omega : 128 - 8 * n ≤ 120 - 8 * i + j),
      Bool.and_true]
  · rw [if_neg hin, decide_eq_false (by omega : ¬ 128 - 8 * n ≤ 120 - 8 * i + j), Bool.and_false, Bool.and_false,
      BitVec.getLsbD_zero]

/-- A whole block is kept (R202). -/
theorem mask_whole (v : Block) : mask v 16 = v := by
  refine BitVec.eq_of_getLsbD_eq fun i hi => ?_
  rw [mask_getLsbD v 16 i le_rfl hi, decide_eq_true (by omega : 128 - 8 * 16 ≤ i), Bool.and_true]

theorem mask_mask (v : Block) (n : Nat) : mask (mask v n) n = mask v n := by
  rw [mask, mask, BitVec.and_assoc, BitVec.and_self]

theorem mask_gfAdd (u v : Block) (n : Nat) : mask (gfAdd u v) n = gfAdd (mask u n) (mask v n) := by
  refine BitVec.eq_of_getLsbD_eq fun i _ => ?_
  simp only [mask, gfAdd, BitVec.getLsbD_and, BitVec.getLsbD_xor, Bool.and_xor_distrib_right]

/-- The keystream block `k` added twice leaves the first `n` bytes of the data (R207). -/
theorem mask_gfAdd_gfAdd (v k : Block) (n : Nat) : mask (gfAdd (mask (gfAdd v k) n) k) n = mask v n := by
  rw [mask_gfAdd, mask_mask, mask_gfAdd, gfAdd, gfAdd, BitVec.xor_assoc, BitVec.xor_self, BitVec.xor_zero]

/-! ### The commands -/

/-- A command that completes without an error has passed its checks and made its own writes (R155). -/
theorem passes_of_no_error {i : Instr} {s t : State} (hexec : exec i s = .next t) (herr : t.err = false) :
    Passes i s ∧ t = okState (ownWrites i s) := by
  obtain ⟨e, -, rfl⟩ | hpass := exec_next_cases hexec
  · cases herr
  · exact hpass

/-- What a command checks is public: CTRL, SEQ, PARTIAL, BLKCNT and the LEN registers (R310, R318). -/
theorem passes_of_samePublic {i : Instr} {s t : State} (hp : Passes i s) (hpub : s.samePublic t) : Passes i t := by
  obtain ⟨hctrl, hseq, hpartial, hblkcnt, hlenA, hlenC⟩ := hpub
  have hseqLegal : seqLegal i s ↔ seqLegal i t := by cases i <;> simp only [seqLegal, hseq, hpartial]
  have hoperands : operandsLegal i s ↔ operandsLegal i t := by
    cases i <;> simp only [operandsLegal, keyLenLegal, nonceLenLegal, hctrl, hblkcnt, hlenA, hlenC]
  exact ⟨hp.len, hseqLegal.mp hp.seq, hoperands.mp hp.operands⟩

/-- KS_XOR n and SEAL_PT n leave in DOUT a block masked to their length (R202, R207, R257). -/
theorem dout_masked {n : BitVec 5} {s t : State}
    (hexec : exec (.ksXor n) s = .next t ∨ exec (.sealPt n) s = .next t) (herr : t.err = false) :
    n.toNat ≤ 16 ∧ ∃ v, t.dout = mask v n.toNat := by
  obtain h | h := hexec <;>
  · obtain ⟨hp, rfl⟩ := passes_of_no_error h herr
    exact ⟨Invariant.toNat_le_of_lenLegal hp.len, _, rfl⟩

/-- Settles O35. -/
theorem maskKeepsLeadingBytes : Obligations.MaskKeepsLeadingBytes := by
  refine ⟨fun v n i _ hn hi => blockByte_mask v hn hi, fun _ _ => rfl, mask_whole,
    fun n s t i hexec herr hni hi => ?_⟩
  obtain ⟨hn, v, hdout⟩ := dout_masked hexec herr
  rw [hdout, blockByte_mask v hn hi, if_neg (by omega)]

/-- Settles O41: the second command passes the checks that the first one passed, and adds the same keystream block. -/
theorem keystreamInvolution : Obligations.KeystreamInvolution := by
  intro n s t u hfirst herr hsecond
  obtain ⟨hp, rfl⟩ := passes_of_no_error hfirst herr
  have hagain : Passes (.ksXor n)
      { okState (ownWrites (.ksXor n) s) with ctr := s.ctr, din := (okState (ownWrites (.ksXor n) s)).dout } :=
    passes_of_samePublic hp ⟨rfl, rfl, rfl, rfl, rfl, rfl⟩
  injection (exec_of_passes hagain).symm.trans hsecond with hu
  rw [← hu]
  exact mask_gfAdd_gfAdd s.din (cipher s s.ctr) n.toNat

/-- Settles O39: the one check behind the sequence is that of the nonce length. -/
theorem counterCommandResults : Obligations.CounterCommandResults :=
  fun s haad htext => ⟨fun hnonce => exec_of_passes ⟨rfl, ⟨haad, htext⟩, (nonceLenLegal_iff s).mpr hnonce⟩,
    exec_of_passes ⟨rfl, ⟨haad, htext⟩, trivial⟩⟩

/-- A block length in numbers (R121). -/
theorem lenLegal_iff (n : BitVec 5) : lenLegal n = true ↔ 1 ≤ n.toNat ∧ n.toNat ≤ 16 := by
  simp [lenLegal]

/-- Settles O40. -/
theorem keystreamCommandResult : Obligations.KeystreamCommandResult :=
  fun n s hpos hle haad htext hkey =>
    exec_of_passes ⟨(lenLegal_iff n).mpr ⟨hpos, hle⟩, ⟨haad, htext⟩, (keyLenLegal_iff s).mpr hkey⟩

end Sys2Proof.Proofs.Counter

/-! Proofs: byte strings as Blocks, and as the chunks a host sends (spec/00_scope.md R11; spec/42_counter.md R204;
spec/43_ghash.md R221). -/
namespace Sys2Proof.Proofs.Messages

open Sys2Proof Sys2Proof.Machine
open Sys2Proof.Proofs.Counter

/-! ### Bytes and Blocks -/

/-- A Block is its sixteen bytes (R11). -/
theorem eq_of_blockByte_eq {u v : Block} (h : ∀ i < 16, blockByte u i = blockByte v i) : u = v := by
  refine BitVec.eq_of_getLsbD_eq fun i hi => ?_
  have hbit := congrArg (BitVec.getLsbD · (i % 8)) (h (15 - i / 8) (by omega))
  simpa only [blockByte, BitVec.getLsbD_extractLsb', show i % 8 < 8 by omega, decide_true, Bool.true_and,
    show 120 - 8 * (15 - i / 8) + i % 8 = i by omega] using hbit

theorem blockByte_gfAdd (u v : Block) (i : Nat) : blockByte (gfAdd u v) i = blockByte u i ^^^ blockByte v i :=
  BitVec.extractLsb'_xor

theorem getElem?_blockBytes (v : Block) {i : Nat} (hi : i < 16) : (blockBytes v)[i]? = some (blockByte v i) := by
  rw [blockBytes, List.getElem?_map, List.getElem?_range hi, Option.map_some]

@[simp] theorem length_blockBytes (v : Block) : (blockBytes v).length = 16 := by
  rw [blockBytes, List.length_map, List.length_range]

/-- Bytes shifted into a Block one after another, from its end. -/
def shiftIn (bs : List Byte) : Block := bs.foldl (fun v b => (v <<< 8) ||| b.setWidth 128) 0#128

theorem blockOfBytes_eq_shiftIn (bs : List Byte) :
    blockOfBytes bs = shiftIn ((bs ++ List.replicate (16 - bs.length) 0#8).take 16) := rfl

theorem shiftIn_concat (bs : List Byte) (b : Byte) : shiftIn (bs ++ [b]) = (shiftIn bs <<< 8) ||| b.setWidth 128 := by
  rw [shiftIn, List.foldl_concat, shiftIn]

/-- The byte shifted in last stands at the end of the Block, those before it in front of it. -/
theorem extract_shiftIn (bs : List Byte) {k : Nat} (hk : k < 16) :
    (shiftIn bs).extractLsb' (8 * k) 8 = bs.reverse[k]?.getD 0#8 := by
  induction bs using List.reverseRecOn generalizing k with
  | nil => exact BitVec.eq_of_getLsbD_eq fun i _ => by simp [shiftIn]
  | append_singleton bs b ih =>
    rw [shiftIn_concat, List.reverse_concat]
    refine BitVec.eq_of_getLsbD_eq fun j hj => ?_
    simp only [BitVec.getLsbD_extractLsb', BitVec.getLsbD_or, BitVec.getLsbD_shiftLeft, BitVec.getLsbD_setWidth]
    cases k with
    | zero => simp [hj, show j < 128 by omega]
    | succ k =>
      have hprev := congrArg (BitVec.getLsbD · j) (ih (by omega : k < 16))
      simp only [BitVec.getLsbD_extractLsb', hj, decide_true, Bool.true_and] at hprev
      rw [List.getElem?_cons_succ, ← hprev, show 8 * (k + 1) + j - 8 = 8 * k + j by omega,
        BitVec.getLsbD_of_ge b _ (by omega)]
      simp [hj, show 8 * (k + 1) + j < 128 by omega, show ¬ 8 * (k + 1) + j < 8 by omega]

/-- The bytes of a byte string zero-padded on the right (R11). -/
theorem blockByte_blockOfBytes (bs : List Byte) {i : Nat} (hi : i < 16) :
    blockByte (blockOfBytes bs) i = bs[i]?.getD 0#8 := by
  have hlen : ((bs ++ List.replicate (16 - bs.length) 0#8).take 16).length = 16 := by
    simp only [List.length_take, List.length_append, List.length_replicate]
    omega
  rw [blockByte, blockOfBytes_eq_shiftIn, show 120 - 8 * i = 8 * (15 - i) by omega, extract_shiftIn _ (by omega),
    List.getElem?_reverse (by omega), hlen, show 16 - 1 - (15 - i) = i by omega, List.getElem?_take, if_pos hi]
  by_cases hin : i < bs.length
  · rw [List.getElem?_append_left hin]
  · rw [List.getElem?_append_right (by omega), List.getElem?_replicate, if_pos (by omega),
      List.getElem?_eq_none (by omega)]
    rfl

/-- At most 16 bytes are read back from the Block they fill (R11). -/
theorem take_blockBytes_blockOfBytes {bs : List Byte} (hlen : bs.length ≤ 16) :
    (blockBytes (blockOfBytes bs)).take bs.length = bs := by
  refine List.ext_getElem? fun i => ?_
  rw [List.getElem?_take]
  by_cases hi : i < bs.length
  · rw [if_pos hi, getElem?_blockBytes _ (by omega), blockByte_blockOfBytes bs (by omega), List.getElem?_eq_getElem hi,
      Option.getD_some]
  · rw [if_neg hi, List.getElem?_eq_none (by omega)]

/-- The padding is what the mask clears (R202, R221). -/
theorem mask_blockOfBytes {bs : List Byte} (hlen : bs.length ≤ 16) :
    mask (blockOfBytes bs) bs.length = blockOfBytes bs := by
  refine eq_of_blockByte_eq fun i hi => ?_
  rw [blockByte_mask _ hlen hi]
  by_cases hin : i < bs.length
  · rw [if_pos hin]
  · rw [if_neg hin, blockByte_blockOfBytes bs hi, List.getElem?_eq_none (by omega), Option.getD_none]

/-! ### A chunk under the keystream -/

theorem length_xorChunk (key : List Byte) (c : Block) {d : List Byte} (hd : d.length ≤ 16) :
    (xorChunk key c d).length = d.length := by
  rw [xorChunk, List.length_zipWith, length_blockBytes, Nat.min_eq_left hd]

/-- What the keystream datapath makes of a chunk is the chunk of R204 (R204, R207). -/
theorem mask_gfAdd_eq_xorChunk (key : List Byte) (c : Block) {d : List Byte} (hd : d.length ≤ 16) :
    mask (gfAdd (blockOfBytes d) (Config.blockCipher key c)) d.length = blockOfBytes (xorChunk key c d) := by
  refine eq_of_blockByte_eq fun i hi => ?_
  rw [blockByte_mask _ hd hi, blockByte_blockOfBytes _ hi, xorChunk, List.getElem?_zipWith, getElem?_blockBytes _ hi]
  by_cases hin : i < d.length
  · rw [if_pos hin, blockByte_gfAdd, blockByte_blockOfBytes d hi, List.getElem?_eq_getElem hin, Option.getD_some,
      Option.getD_some]
  · rw [if_neg hin, List.getElem?_eq_none (by omega), Option.getD_none]

/-! ### Messages and chunks -/

/-- The chunks of some message: of 1 to 16 bytes, and each before the last one of 16 (R221). -/
inductive Chunked : List (List Byte) → Prop where
  | nil : Chunked []
  | cons {d : List Byte} {ds : List (List Byte)} (hpos : 1 ≤ d.length) (hle : d.length ≤ 16)
      (hfull : ds ≠ [] → d.length = 16) (hrest : Chunked ds) : Chunked (d :: ds)

@[simp] theorem chunksUpTo_nil (fuel : Nat) : chunksUpTo fuel [] = [] := by
  cases fuel <;> rfl

/-- With a turn for every byte, all of the message is cut into chunks. -/
theorem chunksUpTo_spec {fuel : Nat} {bs : List Byte} (hfuel : bs.length ≤ fuel) :
    Chunked (chunksUpTo fuel bs) ∧ (chunksUpTo fuel bs).flatten = bs := by
  induction fuel generalizing bs with
  | zero =>
    obtain rfl := List.length_eq_zero_iff.mp (Nat.le_zero.mp hfuel)
    exact ⟨.nil, rfl⟩
  | succ fuel ih =>
    cases bs with
    | nil => exact ⟨.nil, rfl⟩
    | cons b bs =>
      have hrest : ((b :: bs).drop 16).length ≤ fuel := by
        rw [List.length_drop]
        omega
      obtain ⟨hchunked, hflatten⟩ := ih hrest
      have htake : ((b :: bs).take 16).length = min 16 (bs.length + 1) := by rw [List.length_take, List.length_cons]
      refine ⟨.cons (by omega) (by omega) (fun hne => ?_) hchunked, ?_⟩
      · by_contra hshort
        rw [List.drop_eq_nil_of_le (by rw [List.length_cons]; omega), chunksUpTo_nil] at hne
        exact hne rfl
      · rw [chunksUpTo, List.flatten_cons, hflatten, List.take_append_drop]

theorem chunked_chunks (bs : List Byte) : Chunked (chunks bs) :=
  (chunksUpTo_spec le_rfl).1

@[simp] theorem flatten_chunks (bs : List Byte) : (chunks bs).flatten = bs :=
  (chunksUpTo_spec le_rfl).2

/-- A message is cut into chunks in one way only. -/
theorem chunksUpTo_flatten {ds : List (List Byte)} (hds : Chunked ds) {fuel : Nat}
    (hfuel : ds.flatten.length ≤ fuel) : chunksUpTo fuel ds.flatten = ds := by
  induction hds generalizing fuel with
  | nil => exact chunksUpTo_nil fuel
  | @cons d ds hpos hle hfull hrest ih =>
    rw [List.flatten_cons, List.length_append] at hfuel
    obtain ⟨b, bs, rfl⟩ := List.exists_cons_of_length_pos hpos
    obtain ⟨fuel, rfl⟩ : ∃ k, fuel = k + 1 := ⟨fuel - 1, by omega⟩
    have hcut : ((b :: bs) ++ ds.flatten).take 16 = b :: bs ∧ ((b :: bs) ++ ds.flatten).drop 16 = ds.flatten := by
      by_cases hlast : ds = []
      · rw [hlast, List.flatten_nil, List.append_nil]
        exact ⟨List.take_of_length_le hle, List.drop_eq_nil_of_le hle⟩
      · exact ⟨List.take_left' (hfull hlast), List.drop_left' (hfull hlast)⟩
    obtain ⟨htake, hdrop⟩ := hcut
    rw [List.cons_append] at htake hdrop
    rw [List.flatten_cons, List.cons_append, chunksUpTo, htake, hdrop, ih (by omega)]

theorem chunks_flatten {ds : List (List Byte)} (hds : Chunked ds) : chunks ds.flatten = ds :=
  chunksUpTo_flatten hds le_rfl

/-- The number of chunks of a message. -/
theorem Chunked.length_le {ds : List (List Byte)} (hds : Chunked ds) : 16 * ds.length ≤ ds.flatten.length + 15 := by
  induction hds with
  | nil => exact Nat.zero_le _
  | @cons d ds hpos hle hfull hrest ih =>
    rw [List.length_cons, List.flatten_cons, List.length_append]
    by_cases hlast : ds = []
    · rw [hlast, List.length_nil]
      omega
    · have := hfull hlast
      omega

/-! ### A message under the keystream -/

/-- The chunks of a message under successive counter values, kept apart (R204). -/
def keystreamBlocks (key : List Byte) : Block → List (List Byte) → List (List Byte)
  | _, [] => []
  | c, d :: ds => xorChunk key c d :: keystreamBlocks key (inc32 c).1 ds

theorem flatten_keystreamBlocks (key : List Byte) (c : Block) (ds : List (List Byte)) :
    (keystreamBlocks key c ds).flatten = keystreamChunks key c ds := by
  induction ds generalizing c with
  | nil => rfl
  | cons d ds ih => rw [keystreamBlocks, List.flatten_cons, ih, keystreamChunks]

theorem keystreamBlocks_ne_nil {key : List Byte} {c : Block} {ds : List (List Byte)}
    (h : keystreamBlocks key c ds ≠ []) : ds ≠ [] := by
  rintro rfl
  exact h rfl

/-- The keystream keeps the length of every chunk (R204). -/
theorem chunked_keystreamBlocks {ds : List (List Byte)} (hds : Chunked ds) (key : List Byte) (c : Block) :
    Chunked (keystreamBlocks key c ds) := by
  induction hds generalizing c with
  | nil => exact .nil
  | @cons d ds hpos hle hfull hrest ih =>
    have hxor : (xorChunk key c d).length = d.length := length_xorChunk key c hle
    exact .cons (hxor ▸ hpos) (hxor ▸ hle) (fun hne => hxor ▸ hfull (keystreamBlocks_ne_nil hne)) (ih (inc32 c).1)

theorem length_keystreamChunks {ds : List (List Byte)} (hds : Chunked ds) (key : List Byte) (c : Block) :
    (keystreamChunks key c ds).length = ds.flatten.length := by
  induction hds generalizing c with
  | nil => rfl
  | cons hpos hle hfull hrest ih =>
    rw [keystreamChunks, List.length_append, length_xorChunk key c hle, ih, List.flatten_cons, List.length_append]

/-- The chunks of the output are those of the input under the keystream, one by one (R204). -/
theorem chunks_applyKeystream (data key : List Byte) (start : Block) :
    chunks (applyKeystream data key start) = keystreamBlocks key start (chunks data) := by
  rw [applyKeystream, ← flatten_keystreamBlocks,
    chunks_flatten (chunked_keystreamBlocks (chunked_chunks data) key start)]

/-- The output is as long as the input (R208). -/
theorem length_applyKeystream (data key : List Byte) (start : Block) :
    (applyKeystream data key start).length = data.length := by
  rw [applyKeystream, length_keystreamChunks (chunked_chunks data), flatten_chunks]

end Sys2Proof.Proofs.Messages

/-! Proofs: what the host's commands and blocks do when they pass their checks, and the keystream they compute
(spec/30_encoding.md R132 to R135; spec/42_counter.md R208). -/
namespace Sys2Proof.Proofs.HostSequence

open Sys2Proof Sys2Proof.Machine
open Sys2Proof.Proofs.HostWrite Sys2Proof.Proofs.WideRegisters Sys2Proof.Proofs.Commands
open Sys2Proof.Proofs.Encoding Sys2Proof.Proofs.CommandCycle Sys2Proof.Proofs.Counter Sys2Proof.Proofs.Messages

/-! ### One command and one block -/

/-- `CMD i; POLLOK` with BUSY = 0, of a command that passes its checks (R132, R135, R155). -/
theorem command_of_passes {i : Instr} {s : State} (hidle : s.inFlight = none) (hp : Passes i s) :
    command i s = some (okState (ownWrites i (accept (encode i) s))) := by
  have haccept : busWrite WinReg.cmd.access (encode i) s = accept (encode i) s := by
    rw [busWrite_access, writeReg_cmd _ ((busy_eq_false_iff s).mpr hidle)]
  have hname : (decode (encode i)).instr? = some i := by
    rw [decodeOfEncode i hp.len, Decoded.instr?]
  have hexec : exec i (accept (encode i) s) = .next (okState (ownWrites i (accept (encode i) s))) :=
    exec_of_passes (passes_of_samePublic hp ⟨rfl, rfl, rfl, rfl, rfl, rfl⟩)
  rw [command, haccept, completion_of_inFlight (accept_inFlight _ s), runWord_of_instr hname, hexec]
  rfl

/-- The state in which the command `i` of the block `d` completes: the block in DIN, the command's word accepted. -/
def withBlock (i : Instr) (d : List Byte) (s : State) : State := accept (encode i) (putBlock .din (blockOfBytes d) s)

@[simp] theorem withBlock_din (i : Instr) (d : List Byte) (s : State) : (withBlock i d s).din = blockOfBytes d := rfl
@[simp] theorem withBlock_x (i : Instr) (d : List Byte) (s : State) : (withBlock i d s).x = s.x := rfl
@[simp] theorem withBlock_h (i : Instr) (d : List Byte) (s : State) : (withBlock i d s).h = s.h := rfl

/-- The state that the block `d` leaves, sent with the commands `m` and without an error. -/
def afterBlock (m : BitVec 5 → Instr) (d : List Byte) (s : State) : State :=
  okState (ownWrites (m (chunkLen d)) (withBlock (m (chunkLen d)) d s))

/-- `WR128 DIN, d; CMD m n; POLLOK` with BUSY = 0, of a command that passes its checks (R208). -/
theorem sendBlock_of_passes {m : BitVec 5 → Instr} {d : List Byte} {s : State} (hidle : s.inFlight = none)
    (hp : Passes (m (chunkLen d)) s) : sendBlock m d s = some (afterBlock m d s) := by
  rw [sendBlock, (loadable hidle (.inl rfl)).load128]
  exact command_of_passes hidle (passes_of_samePublic hp ⟨rfl, rfl, rfl, rfl, rfl, rfl⟩)

theorem sendBlocks_cons {m : BitVec 5 → Instr} {d : List Byte} {ds : List (List Byte)} {s t : State}
    (hsend : sendBlock m d s = some t) : sendBlocks m (d :: ds) s = sendBlocks m ds t := by
  rw [sendBlocks, hsend, Option.bind_some]

theorem cryptBlocks_cons {m : BitVec 5 → Instr} {d out : List Byte} {ds : List (List Byte)} {s t u : State}
    (hsend : sendBlock m d s = some t) (hrest : cryptBlocks m ds t = some (out, u)) :
    cryptBlocks m (d :: ds) s = some ((blockBytes t.dout).take d.length ++ out, u) := by
  rw [cryptBlocks, hsend, Option.bind_some, hrest, Option.map_some, rd128Value_eq_readBlock, readBlock]

/-! ### The length of a chunk -/

/-- The field N holds the length of a chunk (R120). -/
theorem toNat_chunkLen {d : List Byte} (hle : d.length ≤ 16) : (chunkLen d).toNat = d.length := by
  rw [chunkLen, BitVec.toNat_ofNat, Nat.mod_eq_of_lt (by omega)]

theorem lenLegal_chunkLen {d : List Byte} (hpos : 1 ≤ d.length) (hle : d.length ≤ 16) :
    lenLegal (chunkLen d) = true := by
  rw [lenLegal_iff, toNat_chunkLen hle]
  exact ⟨hpos, hle⟩

/-- The chunk that KS_XOR and SEAL_PT leave in DOUT, and absorb (R207, R257). -/
theorem mask_chunkLen_eq_xorChunk (key : List Byte) (c : Block) {d : List Byte} (hle : d.length ≤ 16) :
    mask (gfAdd (blockOfBytes d) (Config.blockCipher key c)) (chunkLen d).toNat = blockOfBytes (xorChunk key c d) := by
  rw [toNat_chunkLen hle, mask_gfAdd_eq_xorChunk key c hle]

/-- What the host reads of it is all of it (R208). -/
theorem take_blockBytes_xorChunk (key : List Byte) (c : Block) {d : List Byte} (hle : d.length ≤ 16) :
    (blockBytes (blockOfBytes (xorChunk key c d))).take d.length = xorChunk key c d := by
  have hlen : (xorChunk key c d).length = d.length := length_xorChunk key c hle
  rw [← hlen, take_blockBytes_blockOfBytes (hlen.trans_le hle)]

/-! ### The keystream -/

theorem dout_afterBlock_ksXor {d : List Byte} (hle : d.length ≤ 16) (s : State) :
    (afterBlock .ksXor d s).dout = blockOfBytes (xorChunk (keyBytes s) s.ctr d) :=
  mask_chunkLen_eq_xorChunk (keyBytes s) s.ctr hle

/-- KS_XOR for each chunk in order steps the counter and reads the chunks of R204, the key staying as it is (R208). -/
theorem cryptBlocks_ksXor {ds : List (List Byte)} (hds : Chunked ds) {s : State} (hidle : s.inFlight = none)
    (hseq : s.seq ≠ .slAad ∧ s.seq ≠ .slText) (hkey : keyLenLegal s = true) :
    ∃ t, cryptBlocks .ksXor ds s = some (keystreamChunks (keyBytes s) s.ctr ds, t) := by
  induction hds generalizing s with
  | nil => exact ⟨s, rfl⟩
  | @cons d ds hpos hle hfull hrest ih =>
    have hp : Passes (.ksXor (chunkLen d)) s := ⟨lenLegal_chunkLen hpos hle, hseq, hkey⟩
    obtain ⟨t, ht⟩ : ∃ t, cryptBlocks .ksXor ds (afterBlock .ksXor d s) =
        some (keystreamChunks (keyBytes s) (inc32 s.ctr).1 ds, t) := ih rfl hseq hkey
    refine ⟨t, ?_⟩
    rw [cryptBlocks_cons (sendBlock_of_passes hidle hp) ht, dout_afterBlock_ksXor hle, take_blockBytes_xorChunk _ _ hle,
      keystreamChunks]

/-- Settles O58: CTR holds the start counter, and the chunks of the data follow. -/
theorem keystreamByCommand : Obligations.KeystreamByCommand := by
  intro data start s hidle haad htext hkey
  have hseq : s.seq ≠ .slAad ∧ s.seq ≠ .slText := ⟨haad, htext⟩
  have hload : load128 .ctr start s = putBlock .ctr start s :=
    (loadable hidle (.inr (.inr (.inr (.inl ⟨rfl, (isSeal_eq_false_iff _).mpr hseq⟩))))).load128 start
  obtain ⟨t, ht⟩ := cryptBlocks_ksXor (chunked_chunks data) (s := putBlock .ctr start s) hidle hseq
    ((keyLenLegal_iff s).mpr hkey)
  rw [hload]
  refine ⟨⟨t, ht, ?_⟩, length_applyKeystream data (keyBytes s) start⟩
  rintro rfl
  obtain ⟨-, hsame⟩ := Prod.mk.inj (Option.some.inj ht)
  exact hsame.symm

end Sys2Proof.Proofs.HostSequence

/-! Proofs: the host sequence of a seal computes the seal (spec/44_seal.md R250, R255 to R259). A seal in progress is
described by the blocks it has absorbed; each command extends them. -/
namespace Sys2Proof.Proofs.SealSequence

open Sys2Proof Sys2Proof.Machine
open Sys2Proof.Proofs.WideRegisters Sys2Proof.Proofs.Commands
open Sys2Proof.Proofs.Messages Sys2Proof.Proofs.HostSequence

/-! ### The accumulator and the length counters -/

/-- The blocks `aad` and then `text` have been absorbed with the subkey in H since the flow began (R220, R226). -/
structure Absorbed (aad text : List (List Byte)) (s : State) : Prop where
  x : s.x = ghashBlocks s.h (ghashBlocks s.h 0#128 aad) text
  lenA : s.lenA = bitLength aad.flatten
  lenC : s.lenC = bitLength text.flatten

theorem ghashBlocks_nil (h x : Block) : ghashBlocks h x [] = x := rfl

theorem ghashBlocks_concat (h x : Block) (blocks : List (List Byte)) (d : List Byte) :
    ghashBlocks h x (blocks ++ [d]) = absorb (ghashBlocks h x blocks) h (blockOfBytes d) := by
  rw [ghashBlocks, List.foldl_concat, absorb, ghashBlocks]

/-- The bit length of a message one chunk longer (R55, R226). -/
theorem lenAdd_bitLength (blocks : List (List Byte)) {d : List Byte} (hle : d.length ≤ 16) :
    lenAdd (bitLength blocks.flatten) (chunkLen d) = bitLength (blocks ++ [d]).flatten := by
  rw [lenAdd, toNat_chunkLen hle, bitLength, bitLength, ← BitVec.ofNat_add, List.flatten_concat, List.length_append,
    Nat.mul_add]

/-- One associated-data block more (R232, R256). -/
theorem Absorbed.aadBlock {aad : List (List Byte)} {d : List Byte} {s t : State} (h : Absorbed aad [] s)
    (hle : d.length ≤ 16) (hh : t.h = s.h) (hx : t.x = absorb s.x s.h (blockOfBytes d))
    (hlenA : t.lenA = lenAdd s.lenA (chunkLen d)) (hlenC : t.lenC = s.lenC) : Absorbed (aad ++ [d]) [] t where
  x := by rw [hx, hh, h.x, ghashBlocks_nil, ghashBlocks_nil, ghashBlocks_concat]
  lenA := by rw [hlenA, h.lenA, lenAdd_bitLength aad hle]
  lenC := hlenC.trans h.lenC

/-- One text block more (R233, R257). -/
theorem Absorbed.textBlock {aad text : List (List Byte)} {d : List Byte} {s t : State} (h : Absorbed aad text s)
    (hle : d.length ≤ 16) (hh : t.h = s.h) (hx : t.x = absorb s.x s.h (blockOfBytes d)) (hlenA : t.lenA = s.lenA)
    (hlenC : t.lenC = lenAdd s.lenC (chunkLen d)) : Absorbed aad (text ++ [d]) t where
  x := by rw [hx, hh, h.x, ghashBlocks_concat]
  lenA := hlenA.trans h.lenA
  lenC := by rw [hlenC, h.lenC, lenAdd_bitLength text hle]

/-- The length block absorbed last completes GHASH (R220, R222). -/
theorem Absorbed.absorb_lengthBlock {a c : List Byte} {s : State} (h : Absorbed (chunks a) (chunks c) s) :
    absorb s.x s.h (lengthBlock s.lenA s.lenC) = ghash c a s.h := by
  rw [h.x, h.lenA, h.lenC, flatten_chunks, flatten_chunks, absorb, ghash]

/-! ### A seal in progress -/

/-- Between two commands of a seal under `key` that began with the counter block `j0`: `ctr` is the next counter, and
the blocks `aad` and the ciphertext blocks `text` have been absorbed (R255 to R257, R262). -/
structure Sealing (key : List Byte) (j0 ctr : Block) (aad text : List (List Byte)) (s : State) : Prop where
  idle : s.inFlight = none
  underKey : keyBytes s = key
  tagCounter : s.j0 = j0
  subkey : s.h = Config.blockCipher key 0#128
  nextCounter : s.ctr = ctr
  blockCount : s.blkcnt = BitVec.ofNat 32 text.length
  absorbed : Absorbed aad text s

section
variable {key : List Byte} {j0 ctr : Block} {aad text : List (List Byte)}

/-- SEAL_INIT with KEEP_H = 0 begins a seal that has absorbed nothing (R255). -/
theorem sealInit_sealing {s : State} (hidle : s.inFlight = none) (hp : Passes .sealInit s)
    (hkeep : s.ctrl.keepH = false) :
    ∃ t, command .sealInit s = some t ∧ t.seq = .slAad ∧ t.partialBlk = false ∧
      Sealing (keyBytes s) (initCounter s.nonce) (inc32 (initCounter s.nonce)).1 [] [] t := by
  refine ⟨_, command_of_passes hidle hp, rfl, rfl, rfl, ?key, rfl, ?h, rfl, rfl, rfl, rfl, rfl⟩ <;>
    simp only [ownWrites, accept_ctrl, hkeep] <;> rfl

/-- A chunk of 16 bytes leaves PARTIAL 0 (R44). -/
theorem shortBlock_chunkLen {d : List Byte} (hfull : d.length = 16) : shortBlock (chunkLen d) = false := by
  rw [shortBlock, toNat_chunkLen hfull.le, hfull]
  rfl

theorem x_afterBlock_sealAad {d : List Byte} (hle : d.length ≤ 16) (s : State) :
    (afterBlock .sealAad d s).x = absorb s.x s.h (blockOfBytes d) := by
  simp only [afterBlock, okState_x, ownWrites, withBlock_x, withBlock_h, withBlock_din, toNat_chunkLen hle,
    mask_blockOfBytes hle]

/-- The blocks of associated data, while their bit length fits LEN_A (R229, R256). -/
theorem sendBlocks_sealAad {ds : List (List Byte)} (hds : Chunked ds) {s : State}
    (hs : Sealing key j0 ctr aad [] s) (hseq : s.seq = .slAad) (hpartial : ds ≠ [] → s.partialBlk = false)
    (hfits : 8 * (aad ++ ds).flatten.length < 2 ^ 64) :
    ∃ t, sendBlocks .sealAad ds s = some t ∧ t.seq = .slAad ∧ Sealing key j0 ctr (aad ++ ds) [] t := by
  induction hds generalizing aad s with
  | nil =>
    rw [List.append_nil]
    exact ⟨s, rfl, hseq, hs⟩
  | @cons d ds hpos hle hfull hrest ih =>
    have hover : lenOverflows s.lenA (chunkLen d) = false := by
      rw [List.flatten_append, List.flatten_cons, List.length_append, List.length_append] at hfits
      rw [Bool.eq_false_iff, ne_eq, lenOverflows_iff, hs.absorbed.lenA, bitLength, BitVec.toNat_ofNat,
        toNat_chunkLen hle]
      omega
    have hp : Passes (.sealAad (chunkLen d)) s :=
      ⟨lenLegal_chunkLen hpos hle, ⟨hseq, hpartial (List.cons_ne_nil d ds)⟩, hover⟩
    have hnext : Sealing key j0 ctr (aad ++ [d]) [] (afterBlock .sealAad d s) :=
      ⟨rfl, hs.underKey, hs.tagCounter, hs.subkey, hs.nextCounter, hs.blockCount,
        hs.absorbed.aadBlock hle rfl (x_afterBlock_sealAad hle s) rfl rfl⟩
    rw [sendBlocks_cons (sendBlock_of_passes hs.idle hp), List.append_cons]
    exact ih hnext hseq (fun hne => shortBlock_chunkLen (hfull hne)) (by rwa [← List.append_cons])

/-- The chunk of SEAL_PT is the one of R204 under the next counter of the seal (R257). -/
theorem Sealing.sealChunk_withBlock {d : List Byte} {s : State} (hs : Sealing key j0 ctr aad text s)
    (hle : d.length ≤ 16) :
    sealChunk (chunkLen d) (withBlock (.sealPt (chunkLen d)) d s) = blockOfBytes (xorChunk key ctr d) := by
  rw [← hs.underKey, ← hs.nextCounter]
  exact mask_chunkLen_eq_xorChunk (keyBytes s) s.ctr hle

theorem Sealing.dout_afterBlock_sealPt {d : List Byte} {s : State} (hs : Sealing key j0 ctr aad text s)
    (hle : d.length ≤ 16) : (afterBlock .sealPt d s).dout = blockOfBytes (xorChunk key ctr d) :=
  hs.sealChunk_withBlock hle

theorem Sealing.x_afterBlock_sealPt {d : List Byte} {s : State} (hs : Sealing key j0 ctr aad text s)
    (hle : d.length ≤ 16) : (afterBlock .sealPt d s).x = absorb s.x s.h (blockOfBytes (xorChunk key ctr d)) := by
  simp only [afterBlock, okState_x, ownWrites, withBlock_x, withBlock_h, hs.sealChunk_withBlock hle]

/-- The blocks of plaintext up to the limit of R262: each ciphertext chunk is read, and absorbed (R257). -/
theorem cryptBlocks_sealPt {ds : List (List Byte)} (hds : Chunked ds) {s : State}
    (hs : Sealing key j0 ctr aad text s)
    (hseq : s.seq = .slAad ∨ (s.seq = .slText ∧ (ds ≠ [] → s.partialBlk = false)))
    (hfits : text.length + ds.length ≤ 2 ^ 32 - 2) :
    ∃ t ctr', cryptBlocks .sealPt ds s = some (keystreamChunks key ctr ds, t) ∧
      (t.seq = .slAad ∨ t.seq = .slText) ∧ Sealing key j0 ctr' aad (text ++ keystreamBlocks key ctr ds) t := by
  induction hds generalizing ctr text s with
  | nil =>
    rw [keystreamBlocks, List.append_nil]
    exact ⟨s, ctr, rfl, hseq.imp_right And.left, hs⟩
  | @cons d ds hpos hle hfull hrest ih =>
    rw [List.length_cons] at hfits
    have hbelow : s.blkcnt ≠ maxBlocks := by
      rw [hs.blockCount, ne_eq, ← BitVec.toNat_inj, BitVec.toNat_ofNat, maxBlocks, BitVec.toNat_ofNat]
      omega
    have hlegal : seqLegal (.sealPt (chunkLen d)) s :=
      hseq.imp_right fun ⟨htext, hpartial⟩ => ⟨htext, hpartial (List.cons_ne_nil d ds)⟩
    have hp : Passes (.sealPt (chunkLen d)) s := ⟨lenLegal_chunkLen hpos hle, hlegal, hbelow⟩
    have hxor : (xorChunk key ctr d).length = d.length := length_xorChunk key ctr hle
    have hlenC : lenAdd s.lenC (chunkLen d) = lenAdd s.lenC (chunkLen (xorChunk key ctr d)) := by
      rw [chunkLen, chunkLen, hxor]
    have hblkcnt : s.blkcnt + 1#32 = BitVec.ofNat 32 (text ++ [xorChunk key ctr d]).length := by
      rw [hs.blockCount, List.length_append, BitVec.ofNat_add, List.length_singleton]
    have hnext : Sealing key j0 (inc32 ctr).1 aad (text ++ [xorChunk key ctr d]) (afterBlock .sealPt d s) :=
      ⟨rfl, hs.underKey, hs.tagCounter, hs.subkey, congrArg (fun c => (inc32 c).1) hs.nextCounter, hblkcnt,
        hs.absorbed.textBlock (hxor.trans_le hle) rfl (hs.x_afterBlock_sealPt hle) rfl hlenC⟩
    obtain ⟨t, ctr', hrun, hend⟩ := ih hnext (.inr ⟨rfl, fun hne => shortBlock_chunkLen (hfull hne)⟩)
      (by rw [List.length_append, List.length_singleton]; omega)
    refine ⟨t, ctr', ?_, by rwa [keystreamBlocks, List.append_cons]⟩
    rw [cryptBlocks_cons (sendBlock_of_passes hs.idle hp) hrun, hs.dout_afterBlock_sealPt hle,
      take_blockBytes_xorChunk key ctr hle, keystreamChunks]

/-- SEAL_FINAL leaves in TAG the GHASH of what was absorbed under the keystream block of J0 (R258). -/
theorem sealFinal_tag {a c : List Byte} {s : State} (hs : Sealing key j0 ctr (chunks a) (chunks c) s)
    (hseq : s.seq = .slAad ∨ s.seq = .slText) :
    ∃ t, command .sealFinal s = some t ∧
      t.tag = gfAdd (Config.blockCipher key j0) (ghash c a (Config.blockCipher key 0#128)) := by
  refine ⟨_, command_of_passes hs.idle ⟨rfl, hseq, trivial⟩, ?_⟩
  rw [← hs.subkey, ← hs.absorbed.absorb_lengthBlock, ← hs.underKey, ← hs.tagCounter]
  rfl

end

/-- Settles O60: SEAL_INIT begins the seal, the blocks extend it in order, and SEAL_FINAL gives its tag. -/
theorem sealByCommand : Obligations.SealByCommand := by
  intro plaintext aad s hidle haad htext hkey hnonce hkeep hplain haadFits
  have hp : Passes .sealInit s :=
    ⟨rfl, ⟨haad, htext⟩, (keyLenLegal_iff s).mpr hkey, (nonceLenLegal_iff s).mpr hnonce⟩
  have hblocks : ([] : List (List Byte)).length + (chunks plaintext).length ≤ 2 ^ 32 - 2 := by
    have hcount := (chunked_chunks plaintext).length_le
    rw [flatten_chunks] at hcount
    rw [List.length_nil]
    omega
  obtain ⟨s₁, hinit, hseq₁, hpartial, hs₁⟩ := sealInit_sealing hidle hp hkeep
  obtain ⟨s₂, haadRun, hseq₂, hs₂⟩ := sendBlocks_sealAad (chunked_chunks aad) hs₁ hseq₁ (fun _ => hpartial)
    (by rwa [List.nil_append, flatten_chunks])
  obtain ⟨s₃, ctr, htextRun, hseq₃, hs₃⟩ := cryptBlocks_sealPt (chunked_chunks plaintext) hs₂ (.inl hseq₂) hblocks
  rw [List.nil_append, List.nil_append, ← chunks_applyKeystream] at hs₃
  obtain ⟨t, hfinal, htag⟩ := sealFinal_tag hs₃ hseq₃
  refine ⟨⟨t, ?_⟩, ?_⟩
  · simp only [hostSeal, hinit, haadRun, htextRun, hfinal, Option.bind_some, Option.map_some, rd128Value_eq_readBlock,
      readBlock, htag]
    rfl
  · rw [sealMessage, List.length_append, length_blockBytes, sealCiphertext, length_applyKeystream]

end Sys2Proof.Proofs.SealSequence

/-! Proofs: the next states of the commands of the GHASH family and of SEAL_AAD (spec/43_ghash.md R230 to R234;
spec/44_seal.md R256). -/
namespace Sys2Proof.Proofs.GhashCommands

open Sys2Proof Sys2Proof.Machine
open Sys2Proof.Proofs.Commands Sys2Proof.Proofs.CommandCycle Sys2Proof.Proofs.Counter

/-- Settles O42: H_DERIVE has the check of the key length behind that of the sequence, GHASH_INIT has none. -/
theorem subkeyAndGhashInitResults : Obligations.SubkeyAndGhashInitResults :=
  fun s => ⟨fun hidle hkey => exec_of_passes ⟨rfl, hidle, (keyLenLegal_iff s).mpr hkey⟩,
    fun haad htext => exec_of_passes ⟨rfl, ⟨haad, htext⟩, trivial⟩⟩

/-- An advanced length counter as the 64-bit value of the sum (R55). -/
theorem lenAdd_eq_ofNat (len : BitVec 64) (n : BitVec 5) : lenAdd len n = BitVec.ofNat 64 (len.toNat + 8 * n.toNat) :=
  BitVec.eq_of_toNat_eq (by rw [lenAdd_toNat, BitVec.toNat_ofNat])

/-- The overflow check passes where the advanced counter fits 64 bits (R229). -/
theorem lenOverflows_eq_false_iff (len : BitVec 64) (n : BitVec 5) :
    lenOverflows len n = false ↔ len.toNat + 8 * n.toNat < 2 ^ 64 := by
  rw [Bool.eq_false_iff, ne_eq, lenOverflows_iff, not_le]

/-- Settles O43: in its own phase each of the two passes the same checks and makes the same writes. -/
theorem associatedDataResults : Obligations.AssociatedDataResults := by
  intro n s hpos hle hpartial hfits
  have hlen : lenLegal n = true := (lenLegal_iff n).mpr ⟨hpos, hle⟩
  have hover : lenOverflows s.lenA n = false := (lenOverflows_eq_false_iff _ _).mpr hfits
  rw [← lenAdd_eq_ofNat, ← absorb_eq]
  exact ⟨fun haad => exec_of_passes ⟨hlen, ⟨haad, hpartial⟩, hover⟩,
    fun haad => exec_of_passes ⟨hlen, ⟨haad, hpartial⟩, hover⟩⟩

/-- Settles O44: the sequence check of GHASH_TEXT asks for PARTIAL = 0 in the text phase only. -/
theorem ghashTextAndFinalResults : Obligations.GhashTextAndFinalResults := by
  refine fun s => ⟨fun n hpos hle hseq hfits => ?_, fun hseq => ?_⟩
  · rw [← lenAdd_eq_ofNat, ← absorb_eq]
    exact exec_of_passes ⟨(lenLegal_iff n).mpr ⟨hpos, hle⟩, hseq, (lenOverflows_eq_false_iff _ _).mpr hfits⟩
  · rw [← absorb_eq, ← lengthBlock]
    exact exec_of_passes ⟨rfl, hseq, trivial⟩

end Sys2Proof.Proofs.GhashCommands

/-! Proofs: the host sequence of a GHASH computes GHASH(C, A, H) (spec/43_ghash.md R220, R226, R231 to R235). Each phase
is described by the blocks it has absorbed and those still to come; a block sent moves from the second to the first. -/
namespace Sys2Proof.Proofs.GhashSequence

open Sys2Proof Sys2Proof.Machine
open Sys2Proof.Proofs.Commands Sys2Proof.Proofs.Messages Sys2Proof.Proofs.HostSequence
open Sys2Proof.Proofs.SealSequence Sys2Proof.Proofs.GhashCommands

/-! ### Blocks sent in order -/

/-- Where each block of a message takes an invariant on, all of them are sent without error. The invariant `P` speaks of
the blocks already sent and of those still to come. -/
theorem sendBlocks_of_invariant {m : BitVec 5 → Instr} {P : List (List Byte) → List (List Byte) → State → Prop}
    (hstep : ∀ {sent rest : List (List Byte)} {d : List Byte} {s : State}, 1 ≤ d.length → d.length ≤ 16 →
      (rest ≠ [] → d.length = 16) → P sent (d :: rest) s → ∃ t, sendBlock m d s = some t ∧ P (sent ++ [d]) rest t)
    {ds : List (List Byte)} (hds : Chunked ds) {sent : List (List Byte)} {s : State} (h : P sent ds s) :
    ∃ t, sendBlocks m ds s = some t ∧ P (sent ++ ds) [] t := by
  induction hds generalizing sent s with
  | nil =>
    rw [List.append_nil]
    exact ⟨s, rfl, h⟩
  | @cons d ds hpos hle hfull hrest ih =>
    obtain ⟨t, hsend, hnext⟩ := hstep hpos hle hfull h
    rw [sendBlocks_cons hsend, List.append_cons]
    exact ih hnext

/-- A command that absorbs the masked DIN absorbs the whole zero-padded chunk (R221, R232, R233). -/
theorem x_afterBlock_of_absorbs {m : BitVec 5 → Instr}
    (hm : ∀ n u, (ownWrites (m n) u).x = absorb u.x u.h (mask u.din n.toNat)) {d : List Byte} (hle : d.length ≤ 16)
    (s : State) : (afterBlock m d s).x = absorb s.x s.h (blockOfBytes d) := by
  rw [afterBlock, okState_x, hm, withBlock_x, withBlock_h, withBlock_din, toNat_chunkLen hle, mask_blockOfBytes hle]

/-- The bit length of a message that fits 64 bits (R229). -/
theorem toNat_bitLength {bs : List Byte} (hfits : 8 * bs.length < 2 ^ 64) : (bitLength bs).toNat = 8 * bs.length := by
  rw [bitLength, BitVec.toNat_ofNat, Nat.mod_eq_of_lt hfits]

/-- No block of a message whose bit length fits 64 bits makes its counter overflow (R229, R307). -/
theorem lenOverflows_bitLength {sent rest : List (List Byte)} {d : List Byte} (hle : d.length ≤ 16)
    (hfits : 8 * (sent ++ d :: rest).flatten.length < 2 ^ 64) :
    lenOverflows (bitLength sent.flatten) (chunkLen d) = false := by
  rw [List.flatten_append, List.flatten_cons, List.length_append, List.length_append] at hfits
  rw [lenOverflows_eq_false_iff, toNat_bitLength (by omega), toNat_chunkLen hle]
  omega

/-! ### The two phases -/

/-- Between two commands of a GHASH-only flow with the subkey `h`: the blocks `aad` and `text` have been absorbed. -/
structure Hashing (h : Block) (aad text : List (List Byte)) (s : State) : Prop where
  idle : s.inFlight = none
  subkey : s.h = h
  absorbed : Absorbed aad text s

/-- The associated-data phase with the blocks `sent` absorbed and `rest` to come (R229, R232). -/
structure AadPhase (h : Block) (sent rest : List (List Byte)) (s : State) : Prop extends Hashing h sent [] s where
  seq : s.seq = .ghAad
  noShortBlock : rest ≠ [] → s.partialBlk = false
  fits : 8 * (sent ++ rest).flatten.length < 2 ^ 64

/-- The text phase, or the phase before it, with the text blocks `sent` absorbed and `rest` to come (R229, R233). -/
structure TextPhase (h : Block) (aad sent rest : List (List Byte)) (s : State) : Prop extends Hashing h aad sent s where
  seq : s.seq = .ghAad ∨ (s.seq = .ghText ∧ (rest ≠ [] → s.partialBlk = false))
  fits : 8 * (sent ++ rest).flatten.length < 2 ^ 64

section
variable {h : Block} {aad sent rest : List (List Byte)} {d : List Byte} {s : State}

/-- GHASH_INIT begins a flow that has absorbed nothing, with the subkey as it is (R231). -/
theorem ghashInit_hashing (hidle : s.inFlight = none) (hp : Passes .ghashInit s) :
    ∃ t, command .ghashInit s = some t ∧ t.seq = .ghAad ∧ t.partialBlk = false ∧ Hashing s.h [] [] t :=
  ⟨_, command_of_passes hidle hp, rfl, rfl, rfl, rfl, rfl, rfl, rfl⟩

/-- GHASH_AAD of the next block (R232). -/
theorem AadPhase.sendBlock (hpos : 1 ≤ d.length) (hle : d.length ≤ 16) (hfull : rest ≠ [] → d.length = 16)
    (hs : AadPhase h sent (d :: rest) s) :
    ∃ t, sendBlock .ghashAad d s = some t ∧ AadPhase h (sent ++ [d]) rest t := by
  have hover : lenOverflows s.lenA (chunkLen d) = false := by
    rw [hs.absorbed.lenA, lenOverflows_bitLength hle hs.fits]
  have hp : Passes (.ghashAad (chunkLen d)) s :=
    ⟨lenLegal_chunkLen hpos hle, ⟨hs.seq, hs.noShortBlock (List.cons_ne_nil d rest)⟩, hover⟩
  have habsorbed : Absorbed (sent ++ [d]) [] (afterBlock .ghashAad d s) :=
    hs.absorbed.aadBlock hle rfl (x_afterBlock_of_absorbs (fun _ _ => rfl) hle s) rfl rfl
  exact ⟨_, sendBlock_of_passes hs.idle hp, ⟨rfl, hs.subkey, habsorbed⟩, hs.seq,
    fun hne => shortBlock_chunkLen (hfull hne), by rw [← List.append_cons]; exact hs.fits⟩

/-- GHASH_TEXT of the next block, the first one also after a short block of associated data (R233). -/
theorem TextPhase.sendBlock (hpos : 1 ≤ d.length) (hle : d.length ≤ 16) (hfull : rest ≠ [] → d.length = 16)
    (hs : TextPhase h aad sent (d :: rest) s) :
    ∃ t, sendBlock .ghashText d s = some t ∧ TextPhase h aad (sent ++ [d]) rest t := by
  have hover : lenOverflows s.lenC (chunkLen d) = false := by
    rw [hs.absorbed.lenC, lenOverflows_bitLength hle hs.fits]
  have hlegal : seqLegal (.ghashText (chunkLen d)) s :=
    hs.seq.imp_right fun ⟨htext, hpartial⟩ => ⟨htext, hpartial (List.cons_ne_nil d rest)⟩
  have habsorbed : Absorbed aad (sent ++ [d]) (afterBlock .ghashText d s) :=
    hs.absorbed.textBlock hle rfl (x_afterBlock_of_absorbs (fun _ _ => rfl) hle s) rfl rfl
  exact ⟨_, sendBlock_of_passes hs.idle ⟨lenLegal_chunkLen hpos hle, hlegal, hover⟩, ⟨rfl, hs.subkey, habsorbed⟩,
    .inr ⟨rfl, fun hne => shortBlock_chunkLen (hfull hne)⟩, by rw [← List.append_cons]; exact hs.fits⟩

/-- GHASH_FINAL leaves in X the GHASH of what was absorbed, and the LEN registers as they are (R234). -/
theorem ghashFinal_result {a c : List Byte} (hs : Hashing h (chunks a) (chunks c) s)
    (hseq : s.seq = .ghAad ∨ s.seq = .ghText) :
    ∃ t, command .ghashFinal s = some t ∧ t.x = ghash c a h ∧ t.lenA = bitLength a ∧ t.lenC = bitLength c := by
  refine ⟨_, command_of_passes hs.idle ⟨rfl, hseq, trivial⟩, ?x, ?lenA, ?lenC⟩
  case x =>
    rw [← hs.subkey, ← hs.absorbed.absorb_lengthBlock]
    simp only [okState_x, ownWrites, accept_x, accept_h, accept_lenA, accept_lenC]
  case lenA => exact hs.absorbed.lenA.trans (congrArg bitLength (flatten_chunks a))
  case lenC => exact hs.absorbed.lenC.trans (congrArg bitLength (flatten_chunks c))

end

/-- Settles O59: GHASH_INIT begins the flow, the blocks extend it phase by phase, and GHASH_FINAL completes GHASH. -/
theorem ghashByCommand : Obligations.GhashByCommand := by
  intro c a s hidle haad htext hfitsA hfitsC
  obtain ⟨s₁, hinit, hseq₁, hpartial, hs₁⟩ := ghashInit_hashing hidle ⟨rfl, ⟨haad, htext⟩, trivial⟩
  obtain ⟨s₂, haadRun, hs₂⟩ := sendBlocks_of_invariant AadPhase.sendBlock (chunked_chunks a)
    (⟨hs₁, hseq₁, fun _ => hpartial, by rwa [List.nil_append, flatten_chunks]⟩ : AadPhase s.h [] (chunks a) s₁)
  rw [List.nil_append] at hs₂
  obtain ⟨s₃, htextRun, hs₃⟩ := sendBlocks_of_invariant TextPhase.sendBlock (chunked_chunks c)
    (⟨hs₂.toHashing, .inl hs₂.seq, by rwa [List.nil_append, flatten_chunks]⟩ :
      TextPhase s.h (chunks a) [] (chunks c) s₂)
  rw [List.nil_append] at hs₃
  obtain ⟨t, hfinal, hx, hlenA, hlenC⟩ := ghashFinal_result hs₃.toHashing (hs₃.seq.imp_right And.left)
  refine ⟨t, ?_, hx, ?_, ?_⟩
  · simp only [hostGhash, hinit, haadRun, htextRun, hfinal, Option.bind_some]
  · rw [hlenA, toNat_bitLength hfitsA]
  · rw [hlenC, toNat_bitLength hfitsC]

end Sys2Proof.Proofs.GhashSequence

/-! Proofs: the next states of SEAL_INIT, SEAL_PT and SEAL_FINAL, the limit of a seal's blocks, and the counter block of
each of them (spec/44_seal.md R255, R257, R258, R262, R263). -/
namespace Sys2Proof.Proofs.SealCommands

open Sys2Proof Sys2Proof.Machine
open Sys2Proof.Proofs.Commands Sys2Proof.Proofs.CommandCycle Sys2Proof.Proofs.Counter

/-! ### The next states -/

/-- Settles O45: KEEP_H decides whether the cipher is asked for the subkey. -/
theorem sealInitResult : Obligations.SealInitResult := by
  intro s haad htext hkey hnonce
  have hp : Passes .sealInit s :=
    ⟨rfl, ⟨haad, htext⟩, (keyLenLegal_iff s).mpr hkey, (nonceLenLegal_iff s).mpr hnonce⟩
  rw [exec_of_passes hp, ownWrites, inc32_initCounter]
  cases hkeep : s.ctrl.keepH with
  | false => rfl
  | true => rfl

/-- Settles O46: the sequence check of SEAL_PT asks for PARTIAL = 0 in the text phase only. -/
theorem sealPlaintextResult : Obligations.SealPlaintextResult := by
  intro n s c hpos hle hseq hbelow hc
  have hchunk : c = sealChunk n s := hc
  rw [hchunk, ← absorb_eq]
  exact exec_of_passes ⟨(lenLegal_iff n).mpr ⟨hpos, hle⟩, hseq, hbelow⟩

/-- Settles O47: SEAL_FINAL has no check behind that of the sequence. -/
theorem sealFinalResult : Obligations.SealFinalResult := by
  rintro s g hseq rfl
  rw [← absorb_eq, ← lengthBlock]
  exact exec_of_passes ⟨rfl, hseq, trivial⟩

/-! ### The counter block of a seal -/

section
variable {s : State}

/-- The counter block of a seal is J0 with its field two ahead of the number of blocks done (R255, R263). -/
theorem ctr_of_sealInv (hinv : s.SealInv) (hseal : s.seq.isSeal = true) :
    s.ctr = s.j0.extractLsb' 32 96 ++ (s.blkcnt + 2#32) := by
  obtain ⟨-, -, hj0, hctr, -⟩ := hinv hseal
  rw [hj0, initCounter, BitVec.extractLsb'_append_eq_left, hctr]

theorem field_of_sealInv (hinv : s.SealInv) (hseal : s.seq.isSeal = true) :
    s.ctr.extractLsb' 0 32 = s.blkcnt + 2#32 := by
  rw [ctr_of_sealInv hinv hseal, BitVec.extractLsb'_append_eq_right]

/-- The counter field of J0 is 1 (R203, R255). -/
theorem field_j0_of_sealInv (hinv : s.SealInv) (hseal : s.seq.isSeal = true) : s.j0.extractLsb' 0 32 = 1#32 := by
  obtain ⟨-, -, hj0, -⟩ := hinv hseal
  rw [hj0, initCounter, BitVec.extractLsb'_append_eq_right]

/-- Below the limit of R262 the counter field of a seal has not wrapped. -/
theorem toNat_field_of_sealInv (hinv : s.SealInv) (hseal : s.seq.isSeal = true) (hbelow : s.blkcnt.toNat < 2 ^ 32 - 2) :
    (s.ctr.extractLsb' 0 32).toNat = s.blkcnt.toNat + 2 := by
  rw [field_of_sealInv hinv hseal, BitVec.toNat_add, BitVec.toNat_ofNat]
  omega

theorem eq_maxBlocks_iff (c : BitVec 32) : c = maxBlocks ↔ c.toNat = 2 ^ 32 - 2 :=
  BitVec.toNat_inj.symm

/-- A SEAL_PT at the limit passes its length and sequence checks and raises MESSAGE_TOO_LONG (R262, R306). -/
theorem exec_sealPt_at_limit {n : BitVec 5} (hlen : lenLegal n = true) (hseq : seqLegal (.sealPt n) s)
    (hmax : s.blkcnt = maxBlocks) : exec (.sealPt n) s = .next (errState .messageTooLong s) := by
  have hlength : ¬ badBlockLength n = true := by simp [badBlockLength_eq_not_lenLegal, hlen]
  have hphase : ¬ (!textOK .slAad .slText s) = true := (iff_not_check (textOK_iff _ _ _)).mp hseq
  calc exec (.sealPt n) s
    _ = execSealPt n s := rfl
    _ = raiseErr .messageTooLong s := by
      rw [execSealPt, if_neg hlength, if_neg hphase, if_pos (beq_iff_eq.mpr hmax)]
    _ = .next (errState .messageTooLong s) := rfl

/-- A SEAL_PT that passes its checks in a seal is below the limit (R262). -/
theorem blkcnt_lt_of_passes {n : BitVec 5} (hinv : s.SealInv) (hseal : s.seq.isSeal = true)
    (hp : Passes (.sealPt n) s) : s.blkcnt.toNat < 2 ^ 32 - 2 := by
  obtain ⟨-, -, -, -, -, hle, -⟩ := hinv hseal
  exact lt_of_le_of_ne hle (mt (eq_maxBlocks_iff _).mpr hp.operands)

end

/-- Settles O54: at the limit the third check fails and the error ABORTs the seal; below it the counter field, at least
2, is not that of J0. -/
theorem messageTooLong : Obligations.MessageTooLong := by
  refine ⟨fun n s hpos hle hseq hmax => ?_, fun s hinv hseal hbelow => ?_⟩
  · have hexec : exec (.sealPt n) s = .next (errState .messageTooLong s) :=
      exec_sealPt_at_limit ((lenLegal_iff n).mpr ⟨hpos, hle⟩) hseq ((eq_maxBlocks_iff _).mpr hmax)
    rw [errState_in_seal _ ((isSeal_iff _).mpr (hseq.imp_right And.left))] at hexec
    exact ⟨_, hexec, rfl, rfl, rfl, rfl, rfl, rfl, rfl, rfl, rfl⟩
  · have hfield : (s.ctr.extractLsb' 0 32).toNat = s.blkcnt.toNat + 2 := toNat_field_of_sealInv hinv hseal hbelow
    refine ⟨by omega, fun hreuse => ?_⟩
    rw [hreuse, field_j0_of_sealInv hinv hseal, BitVec.toNat_ofNat] at hfield
    omega

/-- Settles O55: the SEAL_PT has passed its checks, so BLKCNT is below the limit and its writes are those of R257. -/
theorem sealCounterFollowsBlockCount : Obligations.SealCounterFollowsBlockCount := by
  intro n s t hinv hseal hexec herr
  obtain ⟨hp, rfl⟩ := passes_of_no_error hexec herr
  have hbelow : s.blkcnt.toNat < 2 ^ 32 - 2 := blkcnt_lt_of_passes hinv hseal hp
  have hblkcnt : (s.blkcnt + 1#32).toNat = s.blkcnt.toNat + 1 := by
    rw [BitVec.toNat_add, BitVec.toNat_ofNat]
    omega
  refine ⟨?block, hblkcnt, rfl, fun hwrap => ?flag⟩
  case block =>
    rw [BitVec.ofNat_add, BitVec.ofNat_toNat, BitVec.setWidth_eq]
    exact ctr_of_sealInv hinv hseal
  case flag =>
    have hlast : s.ctr.extractLsb' 0 32 = 0xFFFFFFFF#32 ↔ s.blkcnt.toNat + 1 = 2 ^ 32 - 2 := by
      rw [← BitVec.toNat_inj, toNat_field_of_sealInv hinv hseal hbelow, BitVec.toNat_ofNat]
      omega
    calc (okState (ownWrites (.sealPt n) s)).ctrWrap = true
      _ ↔ s.ctr.extractLsb' 0 32 = 0xFFFFFFFF#32 := by
        rw [okState_ctrWrap, ownWrites_ctrWrap_iff]
        simp [hwrap]
      _ ↔ s.blkcnt.toNat + 1 = 2 ^ 32 - 2 := hlast
      _ ↔ (s.blkcnt + 1#32).toNat = 2 ^ 32 - 2 := by rw [hblkcnt]

end Sys2Proof.Proofs.SealCommands

/-! Proofs: which error a word completes with (spec/60_exceptions.md R300 to R310, R318). Each command's checks stand in
a table, in the order in which its meaning makes them; the conditions of R301 to R307, read off the word on their own,
are the failing rows of the table, so the first failing check is the first error of R310. -/
namespace Sys2Proof.Proofs.Errors

open Sys2Proof Sys2Proof.Machine
open Sys2Proof.Proofs.Commands Sys2Proof.Proofs.CommandCycle Sys2Proof.Proofs.Encoding

/-! ### The first error whose condition holds -/

/-- `e` is the first error, in the order of the codes, whose condition holds (R310). -/
structure IsFirst (cond : ErrCode → Prop) (e : ErrCode) : Prop where
  holds : cond e
  noLower : ∀ e', e'.code.toNat < e.code.toNat → ¬ cond e'

/-- The numbers of R300 tell the codes apart. -/
theorem code_injective : Function.Injective ErrCode.code := by
  have hback : ∀ e : ErrCode, ([.none, .illegalCommand, .badBlockLength, .sequence, .invalidKeyLength,
      .unsupportedNonceLength, .messageTooLong, .lengthOverflow, .authenticationFailure] :
      List ErrCode)[e.code.toNat]? = some e := by
    intro e
    cases e <;> rfl
  intro e e' h
  exact Option.some.inj ((hback e).symm.trans (h ▸ hback e'))

/-- There is at most one first error. -/
theorem IsFirst.unique {cond : ErrCode → Prop} {e e' : ErrCode} (h : IsFirst cond e) (h' : IsFirst cond e') :
    e = e' := by
  obtain hlt | heq | hgt := Nat.lt_trichotomy e.code.toNat e'.code.toNat
  · exact absurd h.holds (h'.noLower e hlt)
  · exact code_injective (BitVec.eq_of_toNat_eq heq)
  · exact absurd h'.holds (h.noLower e' hgt)

/-- What ERR and ERR_CODE say after a completion: the first error whose condition holds, or that none does (R41,
R310). -/
inductive Reports (cond : ErrCode → Prop) (t : State) : Prop where
  | error (herr : t.err = true) (hfirst : IsFirst cond t.errCode)
  | success (herr : t.err = false) (hcode : t.errCode = .none) (hnone : ∀ e, ¬ cond e)

namespace Reports

variable {cond cond' : ErrCode → Prop} {t u : State}

theorem congr (h : Reports cond t) (hiff : ∀ e, cond e ↔ cond' e) : Reports cond' t :=
  (funext fun e => propext (hiff e) : cond = cond') ▸ h

theorem err_iff (h : Reports cond t) : t.err = true ↔ ∃ e, cond e := by
  cases h with
  | error herr hfirst => exact iff_of_true herr ⟨_, hfirst.holds⟩
  | success herr _ hnone => simp [herr, hnone]

theorem errCode_of_isFirst (h : Reports cond t) {e : ErrCode} (he : IsFirst cond e) : t.errCode = e := by
  cases h with
  | error _ hfirst => exact hfirst.unique he
  | success _ _ hnone => exact absurd he.holds (hnone e)

theorem errCode_of_none (h : Reports cond t) (hnone : ∀ e, ¬ cond e) : t.errCode = .none := by
  cases h with
  | error _ hfirst => exact absurd hfirst.holds (hnone _)
  | success _ hcode _ => exact hcode

/-- A code is in ERR_CODE exactly when it is that of the first error. -/
theorem errCode_eq_iff (h : Reports cond t) {e : ErrCode} (he : e ≠ .none) : t.errCode = e ↔ IsFirst cond e := by
  refine ⟨?_, h.errCode_of_isFirst⟩
  rintro rfl
  cases h with
  | error _ hfirst => exact hfirst
  | success _ hcode _ => exact absurd hcode he

/-- The conditions determine ERR and ERR_CODE. -/
theorem unique (h : Reports cond t) (h' : Reports cond u) : t.err = u.err ∧ t.errCode = u.errCode := by
  cases h with
  | error herr hfirst =>
    exact ⟨herr.trans (h'.err_iff.mpr ⟨_, hfirst.holds⟩).symm, (h'.errCode_of_isFirst hfirst).symm⟩
  | success herr hcode hnone =>
    have herr' : u.err = false := Bool.eq_false_iff.mpr fun hu =>
      (h'.err_iff.mp hu).elim hnone
    exact ⟨herr.trans herr'.symm, hcode.trans (h'.errCode_of_none hnone).symm⟩

end Reports

/-! ### The table of checks -/

/-- The checks of each command in the order in which it makes them: the code of each, and whether it fails (R310). -/
def checks (i : Instr) (s : State) : List (ErrCode × Bool) :=
  match i with
  | .nop | .gfAdd | .gfMul | .clear => []
  | .ctrInit => [(.sequence, s.seq.isSeal), (.unsupportedNonceLength, !nonceLenLegal s)]
  | .ctrInc | .ghashInit => [(.sequence, s.seq.isSeal)]
  | .ksXor n =>
    [(.badBlockLength, badBlockLength n), (.sequence, s.seq.isSeal), (.invalidKeyLength, !keyLenLegal s)]
  | .hDerive => [(.sequence, decide (s.seq ≠ .idle)), (.invalidKeyLength, !keyLenLegal s)]
  | .ghashAad n =>
    [(.badBlockLength, badBlockLength n), (.sequence, !aadOK .ghAad s), (.lengthOverflow, lenOverflows s.lenA n)]
  | .ghashText n =>
    [(.badBlockLength, badBlockLength n), (.sequence, !textOK .ghAad .ghText s),
      (.lengthOverflow, lenOverflows s.lenC n)]
  | .ghashFinal => [(.sequence, !s.seq.isGhash)]
  | .sealInit =>
    [(.sequence, s.seq.isSeal), (.invalidKeyLength, !keyLenLegal s), (.unsupportedNonceLength, !nonceLenLegal s)]
  | .sealAad n =>
    [(.badBlockLength, badBlockLength n), (.sequence, !aadOK .slAad s), (.lengthOverflow, lenOverflows s.lenA n)]
  | .sealPt n =>
    [(.badBlockLength, badBlockLength n), (.sequence, !textOK .slAad .slText s),
      (.messageTooLong, s.blkcnt == maxBlocks)]
  | .sealFinal => [(.sequence, !s.seq.isSeal)]

/-- The outcome behind a list of checks: the error of the first that fails, or success with the writes of `u`. -/
def afterChecks (cs : List (ErrCode × Bool)) (s u : State) : Host.Outcome State Fault Refusal :=
  match cs with
  | [] => succeed u
  | (e, failed) :: rest => if failed then raiseErr e s else afterChecks rest s u

/-- A command makes the checks of its row, and then its own writes (R155, R310). -/
theorem exec_eq_afterChecks (i : Instr) (s : State) : exec i s = afterChecks (checks i s) s (ownWrites i s) := by
  cases i with
  | hDerive =>
    simp only [checks, afterChecks, decide_eq_true_eq]
    rfl
  | _ => rfl

/-- Each command makes its checks in the order of their codes (R310). -/
theorem checks_ascending (i : Instr) (s : State) :
    (checks i s).Pairwise fun c c' => c.1.code.toNat < c'.1.code.toNat := by
  cases i <;> simp [checks, ErrCode.code]

/-- ILLEGAL_COMMAND is no command's error, and the reserved code nobody's (R301, R309). -/
theorem code_of_mem_checks {i : Instr} {s : State} {c : ErrCode × Bool} (h : c ∈ checks i s) : c.1 ∈ raisedCodes := by
  revert c
  cases i <;> simp [checks, raisedCodes]

/-- The sequence check of a command fails exactly where the table of R162 does not let it run. -/
theorem sequence_mem_checks_iff (i : Instr) (s : State) : (.sequence, true) ∈ checks i s ↔ ¬ seqLegal i s := by
  have houtside : s.seq.isSeal = true ↔ ¬ (s.seq ≠ .slAad ∧ s.seq ≠ .slText) := by
    rw [← isSeal_eq_false_iff, Bool.not_eq_false]
  cases i with
  | nop | gfAdd | gfMul | clear => simp [checks, seqLegal]
  | ctrInit | ctrInc | ksXor n | ghashInit | sealInit => simpa [checks, seqLegal] using houtside
  | hDerive => simp [checks, seqLegal]
  | ghashAad n | sealAad n => simp [checks, seqLegal, ← aadOK_iff]
  | ghashText n | sealPt n => simp [checks, seqLegal, ← textOK_iff]
  | ghashFinal => simp [checks, seqLegal, ← isGhash_iff]
  | sealFinal => simp [checks, seqLegal, ← isSeal_iff]

/-- Checks made in the order of their codes report the first that fails. -/
theorem afterChecks_reports {cs : List (ErrCode × Bool)} {s u t : State}
    (hcs : cs.Pairwise fun c c' => c.1.code.toNat < c'.1.code.toNat) (h : afterChecks cs s u = .next t) :
    Reports (fun e => (e, true) ∈ cs) t := by
  induction cs with
  | nil =>
    obtain rfl := (succeed_eq_next_iff u t).mp h
    exact .success rfl rfl fun e => List.not_mem_nil
  | cons c rest ih =>
    obtain ⟨e, failed⟩ := c
    obtain ⟨hlower, hrest⟩ := List.pairwise_cons.mp hcs
    cases failed with
    | true =>
      obtain rfl := (raiseErr_eq_next_iff e s t).mp h
      refine .error rfl ⟨List.mem_cons_self, fun e' hlt hmem => ?_⟩
      obtain heq | hmem := List.mem_cons.mp hmem
      · cases heq
        exact lt_irrefl _ hlt
      · exact lt_asymm hlt (hlower _ hmem)
    | false => exact (ih hrest h).congr fun e' => by simp

/-- A command reports the first of its checks that fails. -/
theorem exec_reports {i : Instr} {s t : State} (h : exec i s = .next t) : Reports (fun e => (e, true) ∈ checks i s) t :=
  afterChecks_reports (checks_ascending i s) ((exec_eq_afterChecks i s).symm.trans h)

/-! ### The opcodes of the two kinds of commands -/

theorem opcode_mem_plainOpcodes_iff (i : Instr) : i.opcode ∈ plainOpcodes ↔ i.length? = none := by
  cases i <;> simp [plainOpcodes, Instr.opcode, Instr.length?]

theorem opcode_mem_lengthOpcodes_iff (i : Instr) : i.opcode ∈ lengthOpcodes ↔ i.length? ≠ none := by
  cases i <;> simp [lengthOpcodes, Instr.opcode, Instr.length?]

/-- No opcode is of both kinds (R124). -/
theorem plainOpcodes_disjoint_lengthOpcodes : ∀ opc ∈ plainOpcodes, opc ∉ lengthOpcodes := by
  decide

theorem exists_of_mem_plainOpcodes {opc : BitVec 8} (h : opc ∈ plainOpcodes) :
    ∃ i : Instr, i.opcode = opc ∧ i.length? = none := by
  have hmap : plainOpcodes = ([.nop, .gfAdd, .gfMul, .ctrInit, .ctrInc, .hDerive, .ghashInit, .ghashFinal, .sealInit,
    .sealFinal, .clear] : List Instr).map Instr.opcode := rfl
  obtain ⟨i, -, rfl⟩ := List.mem_map.mp (hmap ▸ h)
  exact ⟨i, rfl, (opcode_mem_plainOpcodes_iff i).mp h⟩

theorem exists_of_mem_lengthOpcodes {opc : BitVec 8} (h : opc ∈ lengthOpcodes) (n : BitVec 5) :
    ∃ i : Instr, i.opcode = opc ∧ i.length? = some n := by
  have hmap : lengthOpcodes =
    ([.ksXor n, .ghashAad n, .ghashText n, .sealAad n, .sealPt n] : List Instr).map Instr.opcode := rfl
  obtain ⟨i, hi, rfl⟩ := List.mem_map.mp (hmap ▸ h)
  refine ⟨i, rfl, ?_⟩
  simp only [List.mem_cons, List.not_mem_nil, or_false] at hi
  obtain rfl | rfl | rfl | rfl | rfl := hi <;> rfl

/-- The sequence condition of R162 is the same for every block length: it goes by the opcode. -/
theorem seqLegal_congr_opcode {i j : Instr} (h : i.opcode = j.opcode) (s : State) : seqLegal i s ↔ seqLegal j s := by
  have hlook : ∀ k : Instr, ∃ k', lookup k.opcode 0#5 = some k' ∧ (seqLegal k s ↔ seqLegal k' s) := by
    intro k
    cases k <;> exact ⟨_, rfl, Iff.rfl⟩
  obtain ⟨i', hi, hiff⟩ := hlook i
  obtain ⟨j', hj, hjff⟩ := hlook j
  rw [h, hj] at hi
  cases hi
  exact hiff.trans hjff.symm

/-! ### The conditions of R301 to R307 as failing checks -/

/-- The condition of R301 is that the word spells no command (R127). -/
theorem errorApplies_illegalCommand_iff (w : Word) (s : State) :
    errorApplies w s .illegalCommand ↔ ¬ ∃ i, Spells w i := by
  constructor
  · rintro h ⟨i, hspells⟩
    have hkind : opcField w ∈ plainOpcodes ↔ i.length? = none := hspells.opc ▸ opcode_mem_plainOpcodes_iff i
    obtain hrsv | hopc | ⟨hplain, hlen⟩ := h
    · exact hrsv hspells.rsv
    · have hlength : opcField w ∈ lengthOpcodes ↔ i.length? ≠ none := hspells.opc ▸ opcode_mem_lengthOpcodes_iff i
      obtain ⟨hnotPlain, hnotLength⟩ := not_or.mp (mt List.mem_append.mpr hopc)
      exact hnotLength (hlength.mpr (mt hkind.mpr hnotPlain))
    · have hzero : i.lenBits = 0#5 := by rw [Instr.lenBits, hkind.mp hplain]
      exact hlen (hspells.len.trans hzero)
  · intro hno
    by_contra hlegal
    simp only [errorApplies, not_or, not_and, ne_eq, not_not] at hlegal
    obtain ⟨hrsv, hopc, hplain⟩ : rsvField w = 0#19 ∧ opcField w ∈ plainOpcodes ++ lengthOpcodes ∧
      (opcField w ∈ plainOpcodes → lenField w = 0#5) := hlegal
    by_cases hmem : opcField w ∈ plainOpcodes
    · obtain ⟨i, hi, hlen⟩ := exists_of_mem_plainOpcodes hmem
      exact hno ⟨i, hrsv, hi.symm, by rw [hplain hmem, Instr.lenBits, hlen]⟩
    · obtain ⟨i, hi, hlen⟩ :=
        exists_of_mem_lengthOpcodes ((List.mem_append.mp hopc).resolve_left hmem) (lenField w)
      exact hno ⟨i, hrsv, hi.symm, by rw [Instr.lenBits, hlen]⟩

section
variable {w : Word} {i : Instr}

/-! One lemma a code, for a word that spells the command `i`. -/

theorem errorApplies_badBlockLength_iff (h : Spells w i) (s : State) :
    errorApplies w s .badBlockLength ↔ (.badBlockLength, true) ∈ checks i s := by
  have hfields : errorApplies w s .badBlockLength ↔
      i.opcode ∈ lengthOpcodes ∧ (i.lenBits = 0#5 ∨ 16 < i.lenBits.toNat) := by
    rw [← h.opc, ← h.len]
    rfl
  rw [hfields, opcode_mem_lengthOpcodes_iff]
  cases i <;> simp [checks, Instr.lenBits, Instr.length?, badBlockLength_iff, ← BitVec.toNat_inj]

theorem errorApplies_sequence_iff (h : Spells w i) (s : State) :
    errorApplies w s .sequence ↔ (.sequence, true) ∈ checks i s := by
  have hown : errorApplies w s .sequence ↔ ¬ seqLegal i s := by
    refine ⟨fun ⟨j, hopc, hj⟩ => ?_, fun hi => ⟨i, h.opc.symm, hi⟩⟩
    exact mt (seqLegal_congr_opcode (hopc.trans h.opc) s).mpr hj
  rw [hown, sequence_mem_checks_iff]

theorem errorApplies_invalidKeyLength_iff (h : Spells w i) (s : State) :
    errorApplies w s .invalidKeyLength ↔ (.invalidKeyLength, true) ∈ checks i s := by
  have hfields : errorApplies w s .invalidKeyLength ↔ i.opcode ∈ [0x12#8, 0x20#8, 0x30#8] ∧ keyLenLegal s = false := by
    rw [← h.opc, Bool.eq_false_iff, ne_eq, keyLenLegal_iff, not_or, not_or]
    rfl
  rw [hfields]
  cases i <;> simp [checks, Instr.opcode]

theorem errorApplies_unsupportedNonceLength_iff (h : Spells w i) (s : State) :
    errorApplies w s .unsupportedNonceLength ↔ (.unsupportedNonceLength, true) ∈ checks i s := by
  have hfields : errorApplies w s .unsupportedNonceLength ↔ i.opcode ∈ [0x10#8, 0x30#8] ∧ nonceLenLegal s = false := by
    rw [← h.opc, Bool.eq_false_iff, ne_eq, nonceLenLegal_iff]
    rfl
  rw [hfields]
  cases i <;> simp [checks, Instr.opcode]

theorem errorApplies_messageTooLong_iff (h : Spells w i) (s : State) :
    errorApplies w s .messageTooLong ↔ (.messageTooLong, true) ∈ checks i s := by
  have hfields : errorApplies w s .messageTooLong ↔ i.opcode = 0x32#8 ∧ s.blkcnt = maxBlocks := by
    rw [← h.opc, SealCommands.eq_maxBlocks_iff]
    rfl
  rw [hfields]
  cases i <;> simp [checks, Instr.opcode]

theorem errorApplies_lengthOverflow_iff (h : Spells w i) (s : State) :
    errorApplies w s .lengthOverflow ↔ (.lengthOverflow, true) ∈ checks i s := by
  have hfields : errorApplies w s .lengthOverflow ↔
      (i.opcode ∈ [0x22#8, 0x31#8] ∧ lenOverflows s.lenA i.lenBits = true) ∨
        (i.opcode = 0x23#8 ∧ lenOverflows s.lenC i.lenBits = true) := by
    rw [← h.opc, ← h.len, lenOverflows_iff, lenOverflows_iff]
    rfl
  rw [hfields]
  cases i <;> simp [checks, Instr.opcode, Instr.lenBits, Instr.length?]

/-- The error conditions of a word that spells a command are the failing checks of the command. -/
theorem errorApplies_iff_mem_checks (h : Spells w i) (s : State) (e : ErrCode) :
    errorApplies w s e ↔ (e, true) ∈ checks i s := by
  have hnotMem : e ∉ raisedCodes → (e, true) ∉ checks i s := mt code_of_mem_checks
  cases e with
  | none => exact iff_of_false id (hnotMem (by decide))
  | authenticationFailure => exact iff_of_false id (hnotMem (by decide))
  | illegalCommand =>
    exact iff_of_false (fun hill => (errorApplies_illegalCommand_iff w s).mp hill ⟨i, h⟩) (hnotMem (by decide))
  | badBlockLength => exact errorApplies_badBlockLength_iff h s
  | sequence => exact errorApplies_sequence_iff h s
  | invalidKeyLength => exact errorApplies_invalidKeyLength_iff h s
  | unsupportedNonceLength => exact errorApplies_unsupportedNonceLength_iff h s
  | messageTooLong => exact errorApplies_messageTooLong_iff h s
  | lengthOverflow => exact errorApplies_lengthOverflow_iff h s

end

/-! ### What a word reports -/

/-- No error has a lower code than ILLEGAL_COMMAND (R300). -/
theorem isFirst_illegalCommand_iff (w : Word) (s : State) :
    IsFirst (errorApplies w s) .illegalCommand ↔ errorApplies w s .illegalCommand := by
  refine ⟨IsFirst.holds, fun h => ⟨h, fun e hlt => ?_⟩⟩
  cases e with
  | none => exact id
  | _ => exact absurd hlt (by decide)

/-- Only ILLEGAL_COMMAND comes before BAD_BLOCK_LENGTH (R300). -/
theorem isFirst_badBlockLength_iff (w : Word) (s : State) :
    IsFirst (errorApplies w s) .badBlockLength ↔
      ¬ errorApplies w s .illegalCommand ∧ errorApplies w s .badBlockLength := by
  refine ⟨fun h => ⟨h.noLower _ (by decide), h.holds⟩, fun ⟨hill, h⟩ => ⟨h, fun e hlt => ?_⟩⟩
  cases e with
  | none => exact id
  | illegalCommand => exact hill
  | _ => exact absurd hlt (by decide)

/-- A word completes with the first error, in the order of R310, whose condition holds, or with none. -/
theorem runWord_reports {w : Word} {s t : State} (h : runWord w s = .next t) : Reports (errorApplies w s) t := by
  by_cases hname : ∃ i, Spells w i
  · obtain ⟨i, hspells⟩ := hname
    have hinstr : (decode w).instr? = some i := by
      rw [hspells.decode_eq]
      cases i.wellFormed <;> rfl
    rw [runWord_of_instr hinstr] at h
    exact (exec_reports h).congr fun e => (errorApplies_iff_mem_checks hspells s e).symm
  · cases hd : decode w with
    | illegal why =>
      rw [runWord_of_illegal hd] at h
      injection h with h
      subst h
      exact .error rfl ((isFirst_illegalCommand_iff w s).mpr ((errorApplies_illegalCommand_iff w s).mpr hname))
    | command i => exact absurd ⟨i, spells_of_decode (hd ▸ rfl)⟩ hname
    | badLen i => exact absurd ⟨i, spells_of_decode (hd ▸ rfl)⟩ hname

/-! ### The statements -/

/-- The opcodes of both kinds are those of the table of R124. -/
theorem opcodes_perm_table :
    (plainOpcodes ++ lengthOpcodes).Perm [0x00#8, 0x01#8, 0x02#8, 0x10#8, 0x11#8, 0x12#8, 0x20#8, 0x21#8, 0x22#8,
      0x23#8, 0x24#8, 0x30#8, 0x31#8, 0x32#8, 0x33#8, 0x3F#8] := by decide

/-- Settles O3: ILLEGAL_COMMAND comes before every other error, so its condition alone decides. -/
theorem illegalCommandExactly : Obligations.IllegalCommandExactly := by
  intro w s
  obtain ⟨t, hrun, -⟩ := runWord_completes w s
  refine ⟨t, hrun, ?_⟩
  have htable : w.extractLsb' 0 8 ∈ plainOpcodes ++ lengthOpcodes ↔ _ := opcodes_perm_table.mem_iff
  rw [(runWord_reports hrun).errCode_eq_iff (e := .illegalCommand) nofun, isFirst_illegalCommand_iff]
  exact or_congr_right (or_congr_left (not_congr htable))

/-- Settles O4: of the conditions of R301, only RSV can come before a bad length on an opcode that takes one. -/
theorem badBlockLengthExactly : Obligations.BadBlockLengthExactly := by
  intro w s
  obtain ⟨t, hrun, -⟩ := runWord_completes w s
  refine ⟨t, hrun, ?_⟩
  rw [(runWord_reports hrun).errCode_eq_iff (e := .badBlockLength) nofun, isFirst_badBlockLength_iff]
  refine ⟨fun ⟨hlegal, hopc, hlen⟩ => ⟨not_not.mp fun hrsv => hlegal (.inl hrsv), hopc, hlen⟩,
    fun ⟨hrsv, hopc, hlen⟩ => ⟨?_, hopc, hlen⟩⟩
  rintro (hres | hunknown | ⟨hplain, -⟩)
  · exact hres hrsv
  · exact hunknown (List.mem_append_right _ hopc)
  · exact plainOpcodes_disjoint_lengthOpcodes _ hplain hopc

/-- Settles O12: the conditions of R301 to R307 are the checks that the command makes, in the order of their codes. -/
theorem firstErrorIsReported : Obligations.FirstErrorIsReported := by
  intro w s t hrun
  have hreports : Reports (errorApplies w s) t := runWord_reports hrun
  exact ⟨hreports.err_iff, fun e he hlower => hreports.errCode_of_isFirst ⟨he, hlower⟩, hreports.errCode_of_none,
    (CompletionFrame.runWord_keepsHostState hrun).werr⟩

/-- The error conditions read nothing but the word and what is public (R318). -/
theorem errorApplies_congr_samePublic {s t : State} (h : s.samePublic t) (w : Word) (e : ErrCode) :
    errorApplies w s e ↔ errorApplies w t e := by
  obtain ⟨hctrl, hseq, hpartial, hblkcnt, hlenA, hlenC⟩ := h
  have hseqLegal : ∀ i, seqLegal i s ↔ seqLegal i t := by
    intro i
    cases i <;> simp only [seqLegal, hseq, hpartial]
  cases e <;> simp only [errorApplies, hctrl, hblkcnt, hlenA, hlenC, hseqLegal]

/-- Settles O15: the conditions determine the code, and they are the same in both states. -/
theorem errorCodeRevealsNoSecret : Obligations.ErrorCodeRevealsNoSecret := by
  intro w s t s' t' hpublic hs ht
  exact (runWord_reports hs).unique
    ((runWord_reports ht).congr fun e => (errorApplies_congr_samePublic hpublic w e).symm)

/-- Settles O13: the reserved code 8 has no condition, and the named ones stand below it in STATUS. -/
theorem reservedCodesNeverRaised : Obligations.ReservedCodesNeverRaised := by
  intro w s t hrun
  have hcode : t.errCode ≠ .authenticationFailure := by
    rw [ne_eq, (runWord_reports hrun).errCode_eq_iff (e := .authenticationFailure) nofun]
    exact IsFirst.holds
  refine ⟨?_, hcode⟩
  rw [readReg, StatusControl.statusWord_errCode]
  cases hc : t.errCode with
  | authenticationFailure => exact absurd hc hcode
  | _ => decide

end Sys2Proof.Proofs.Errors

/-! Proofs: the requests at the cipher port, and the interrupt output (spec/60_exceptions.md R315, R320, R322). -/
namespace Sys2Proof.Proofs.Ports

open Sys2Proof Sys2Proof.Machine
open Sys2Proof.Proofs.HostAccess Sys2Proof.Proofs.Commands Sys2Proof.Proofs.CommandCycle

/-- The own writes of a command record its requests (R320, R322). -/
theorem ownWrites_portLog (i : Instr) (s : State) : (ownWrites i s).portLog = cipherCalls i s ++ s.portLog := by
  cases i with
  | sealInit => cases hkeep : s.ctrl.keepH <;> simp [ownWrites, cipherCalls, hkeep]
  | _ => rfl

/-- An error makes no request (R322). -/
theorem errState_portLog (e : ErrCode) (s : State) : (errState e s).portLog = s.portLog := by
  obtain ⟨-, -, -, -, -, -, -, -, -, -, -, -, hport⟩ := errState_keeps e s
  exact hport

/-- Settles O16: an error leaves the record alone, and a success adds the requests of its own writes. -/
theorem cipherCallsPerCommand : Obligations.CipherCallsPerCommand := by
  refine fun i s t hexec => ⟨?_, fun _ => ?_⟩
  · obtain ⟨e, -, rfl⟩ | ⟨-, rfl⟩ := exec_next_cases hexec
    · simp [errState_portLog]
    · simp [ownWrites_portLog]
  · cases i with
    | sealInit => cases hkeep : s.ctrl.keepH <;> simp [cipherCalls, hkeep]
    | _ => rfl

/-! ### The interrupt -/

theorem irq_eq_false_of_done {s : State} (h : s.done = false) : irq s = false := by
  simp [irq, h]

/-- CTRL outside a seal flow is stored to (R93). -/
theorem stores_ctrl {s : State} (hidle : s.inFlight = none) (haad : s.seq ≠ .slAad) (htext : s.seq ≠ .slText) :
    Stores .ctrl s :=
  ⟨hidle, nofun, nofun, rfl, Bool.eq_false_iff.mpr fun h => by simp [HostWrite.locked_iff, haad, htext] at h⟩

/-- A completion leaves DONE 1 and CTRL as it stands (R155). -/
theorem irq_runWord {w : Word} {s t : State} (h : runWord w s = .next t) : irq t = s.ctrl.irqEn := by
  obtain ⟨u, hu, -, hdone⟩ := runWord_completes w s
  injection h.symm.trans hu with htu
  rw [irq, htu, hdone, Bool.and_true, ← htu, (CompletionFrame.runWord_keepsHostState h).ctrl]

/-- Settles O29. -/
theorem interruptLevel : Obligations.InterruptLevel := by
  refine ⟨fun s => ?level, fun w s t => irq_runWord, fun d s hidle => ?accept, fun d s hd => ?w1c,
    fun d s hidle haad htext hd => ?ctrl, rfl⟩
  case level => rw [irq, Bool.and_eq_true]
  case accept =>
    rw [busWrite_access, HostWrite.writeReg_cmd d ((HostWrite.busy_eq_false_iff s).mpr hidle)]
    exact irq_eq_false_of_done (accept_done d s)
  case w1c =>
    rw [busWrite_access, HostWrite.writeReg_status]
    exact irq_eq_false_of_done (by simp [hd])
  case ctrl =>
    rw [(stores_ctrl hidle haad htext).busWrite]
    exact congrArg (· && s.done) hd

end Sys2Proof.Proofs.Ports

/-! Proofs: the state after reset, what a reset discards, and the hash under a subkey of zero
(spec/70_reset_and_hazards.md R350 to R352, R366). -/
namespace Sys2Proof.Proofs.ResetAndHazards

open Sys2Proof Sys2Proof.Machine
open Sys2Proof.Proofs.HostAccess Sys2Proof.Proofs.Counter

/-! ### A subkey of zero -/

/-- With H = 0 the accumulator is 0 after one block, whatever it held and whatever the block (R163, R184, R366). -/
theorem absorb_of_zero_subkey {h : Block} (hzero : h = 0#128) (x v : Block) : absorb x h v = 0#128 := by
  obtain ⟨-, -, hright, -⟩ := FieldLaws.multiplicationEdges (x ^^^ v)
  rw [absorb_eq, hzero, hright]

/-- Settles O48: all six commands write X by one absorption under H. -/
theorem zeroSubkeyGivesZeroHash : Obligations.ZeroSubkeyGivesZeroHash := by
  intro i s t hzero hexec herr habsorbs
  obtain ⟨-, rfl⟩ := passes_of_no_error hexec herr
  rw [okState_x]
  cases i with
  | ghashAad n | ghashText n | ghashFinal | sealAad n | sealPt n | sealFinal => exact absorb_of_zero_subkey hzero _ _
  | _ => exact habsorbs.elim

/-! ### The state after reset -/

/-- Every 128-bit register is 0 after reset (R351). -/
theorem readBlock_reset (v : BlockReg) : readBlock v State.reset = 0#128 := by
  cases v <;> rfl

/-- Settles O27: the two words put together from fields are evaluated, the registers are those of the reset state. -/
theorem resetValues : Obligations.ResetValues := by
  refine ⟨rfl, ?ctrl, ?status, rfl, rfl, rfl, rfl, rfl, rfl, readBlock_reset, rfl, rfl, rfl, rfl, rfl⟩
  case ctrl => decide
  case status => decide

/-- Settles O56: the base case of O57. -/
theorem invariantAtReset : Obligations.InvariantAtReset := Invariant.inv_reset

/-! ### A reset at any point -/

/-- After a reset, whatever the state before it, every word of the window reads as in the state after reset: the lists
that a reset keeps are outside the core (R350, R351). -/
theorem readReg_resetCore (r : WinReg) (s : State) : readReg r (resetCore s) = readReg r State.reset := by
  cases r with
  | block v k => cases v <;> rfl
  | _ => rfl

/-- A reset leaves no command in flight: the completion that was to come changes nothing (R155, R352). -/
theorem step_resetCore_of_complete {s : State} {rest : List Event} (h : s.agenda = .complete :: rest) :
    step (resetCore s) = .next (resetCore { s with agenda := rest }) := by
  rw [step_of_agenda_cons (s := resetCore s) h, perform]
  exact completion_of_idle rfl

/-- Settles O28: the second step leaves the state of the reset but for the agenda. -/
theorem resetDiscardsCommand : Obligations.ResetDiscardsCommand := by
  intro s rest hagenda
  exact ⟨_, _, step_of_agenda_cons hagenda, step_resetCore_of_complete rfl, fun r => readReg_resetCore r _, rfl, rfl,
    rfl, rfl, rfl, rfl⟩

end Sys2Proof.Proofs.ResetAndHazards
